-- ==== Sys2Proof/Word.lean ====
section
/-!
DEFINITION. The widths of the engine: bytes of BUF, 32-bit registers, 64-bit blocks, keys and IVs, 48-bit round keys
(spec 10_state.md R10, 00_scope.md R6).
-/
namespace Sys2Proof

/-- One byte of BUF. -/
abbrev Byte := BitVec 8

/-- A host register or a command word: REG_BITS = 32 (R6). -/
abbrev Word := BitVec 32

/-- A DES block, key, IV or feedback value: BLOCK_BYTES = KEY_BYTES = IV_BYTES = 8 bytes (R6). -/
abbrev Block := BitVec 64

/-- A round key: RK_BITS = 48 (R6). -/
abbrev RoundKey := BitVec 48

/-- A byte string, first byte first (R7). -/
abbrev Bytes := List Byte

end Sys2Proof
end

