-- ==== Sys2Proof/Config.lean ====
section
/-!
DEFINITION. What an implementation fixes and what the spec leaves free (spec 00_scope.md R6; 93_implementation_defined.md
I1 to I3). The free values have no body: nothing in Lean can evaluate them, so a claim holds whatever they are.
The buffer size BUF_BYTES is OPEN in the spec and is carried in State as `bufExp`, so that a claim over all states is a
claim over all legal sizes; RAW_PATH_TRIMMED is an argument of the host adapter.
-/
namespace Sys2Proof

/-- ID_VALUE (R6, R12): "DE", major version 1, minor version 0. -/
def Config.idValue : Word := 0x44450100

/-- The default of BUF_BYTES, 4096 = 2^(4+8), as the exponent above 16 (R6). -/
def Config.defaultBufExp : Fin 13 := 8

/-- Free value: the answer of the random source to the n-th `draw_rng()` (R16, R150; I3). Repeats are not excluded. -/
opaque Config.rngDraw : Nat → Block

/-- Free value: the contents of byte `a` of BUF after the n-th hardware reset, until it is written (R29, R200; I1). -/
opaque Config.bufInit : Nat → Nat → Byte

/-- Free value: the n-th byte left in the output region of an abandoned command (R202; I2). -/
opaque Config.abandonedByte : Nat → Byte

end Sys2Proof
end

