-- ==== Sys2Proof/Syntax.lean ====
section
/-!
DEFINITION. The commands of the engine: one constructor per row of spec/opcode_table.json (spec 30_encoding.md R63).
A command's other operands are the latched registers LAT.SRC, LAT.DST and LAT.LEN, which stand in State (R28, R62).
-/
namespace Sys2Proof

/-- A command of the engine. BS is the only operand the word itself carries (R62). -/
inductive Instr where
  /-- NOP (R113). -/
  | nop
  /-- KEYLD: load the key and compute the round keys (R110). -/
  | keyld
  /-- IVLD: load the IV (R111). -/
  | ivld
  /-- ENCB: encrypt one block (R120). -/
  | encb
  /-- DECB: decrypt one block (R121). -/
  | decb
  /-- ECBENC: ECB encryption with PKCS#7 padding (R140). -/
  | ecbenc
  /-- CFBENC: CFB encryption (R142). -/
  | cfbenc
  /-- ECBDEC: ECB decryption with PKCS#7 unpadding (R141). -/
  | ecbdec
  /-- CFBDEC: CFB decryption (R143). -/
  | cfbdec
  /-- PAD: append PKCS#7 padding to block size `bs` (R132). -/
  | pad (bs : BitVec 8)
  /-- UNPAD: check and remove PKCS#7 padding of block size `bs` (R133). -/
  | unpad (bs : BitVec 8)
  /-- ZEROIZE: clear all key and IV state (R112). -/
  | zeroize
  deriving DecidableEq, Repr

/-- The operands a command uses, by the name R63 and the opcode table give them. -/
inductive Operand where
  | src
  | dst
  | len
  | bs
  deriving DecidableEq, Repr

end Sys2Proof
end

