-- ==== Sys2Proof/Machine/State.lean ====
section
/-!
DEFINITION. The state of the engine as plain data: the record of spec 10_state.md R10, and beside it the model's own
fields: the buffer size (R6), the answer of the last host transaction (R41), the schedule of what acts next (R187), and
the counters that select free values (R16, R200, R202).
-/
namespace Sys2Proof.Machine

/-- Result codes (60_exceptions.md R182). Codes 13 to 15 are reserved and never produced, so they have no name here. -/
inductive ErrCode where
  /-- 0: no error. -/
  | success
  /-- 1: KEYLD with LAT.LEN not 8; the adapter, for a normalized key longer than BUF. -/
  | invalidKeyLength
  /-- 2: IVLD with LAT.LEN not 8; the adapter, for a normalized IV longer than BUF. -/
  | invalidIvLength
  /-- 3: OP 5 or 6 with MODE 2 or 3; the adapter, for a mode text other than "ecb" and "cfb". -/
  | unsupportedMode
  /-- 4: UNPAD and ECBDEC on bytes that carry no valid padding. -/
  | invalidPadding
  /-- 5: adapter only, a ciphertext text that is not hexadecimal. -/
  | invalidCiphertextEncoding
  /-- 6: adapter only, decrypted bytes that are not well-formed UTF-8. -/
  | invalidUtf8
  /-- 7: CFBDEC with IVV = 0. -/
  | missingIv
  /-- 8: an illegal encoding of R65. -/
  | illegalCommand
  /-- 9: a region out of range, or input and output partly overlapping. -/
  | rangeError
  /-- 10: a cipher command with KEYV = 0. -/
  | keyNotLoaded
  /-- 11: ENCB or DECB with LAT.LEN not 8. -/
  | invalidBlockLength
  /-- 12: adapter only, a message that does not fit BUF. -/
  | messageTooLong
  deriving DecidableEq, Repr

/-- STATUS (R14), field by field; the reserved bits have no storage. -/
structure Status where
  /-- A command is accepted and not yet completed. -/
  busy : Bool
  /-- A command has completed since the last accept and the last write of 1. -/
  done : Bool
  /-- RK holds the round keys of a loaded key. -/
  keyv : Bool
  /-- IV holds a loaded value. -/
  ivv : Bool
  /-- The last completed command was a CFBENC that drew its IV. -/
  ivgen : Bool
  /-- A CMD write was rejected since the last write of 1. -/
  cmdrej : Bool
  /-- The result code of the last completed command. -/
  errcode : ErrCode
  deriving DecidableEq, Repr

/-- LAT: the command word and operand registers as they were at the accept (R28). -/
structure Latch where
  cmd : Word
  src : Word
  dst : Word
  len : Word
  deriving DecidableEq, Repr

/-- The size of a host transaction, 8, 16 or 32 bits (R41). -/
inductive Size where
  | s8
  | s16
  | s32
  deriving DecidableEq, Repr

/-- A host transaction (R41). -/
structure Tx where
  offset : BitVec 17
  write : Bool
  size : Size
  wdata : Word
  deriving DecidableEq, Repr

/-- The answer to a host transaction (R41). -/
structure Resp where
  rdata : Word
  err : Bool
  deriving DecidableEq, Repr

/-- What can act next on the engine (R10, R187, R200). -/
inductive Event where
  /-- The host performs a transaction (R41). -/
  | host (t : Tx)
  /-- The engine takes its turn; `rngAnswers` says whether the random source would answer a draw now (R16). -/
  | engine (rngAnswers : Bool)
  /-- The reset input is asserted and deasserted (R200). -/
  | reset
  deriving DecidableEq, Repr

/-- The written bytes of BUF: (buffer address, byte), addresses strictly rising. An unlisted address has not been written
since the last hardware reset. -/
abbrev Memory := List Host.Cell

/-- The machine. The first block is the record of R10; the second is the model's own. -/
structure State where
  /-- CTRL.IRQEN (R13). -/
  irqen : Bool
  /-- STATUS (R14). -/
  status : Status
  /-- CMD_LAST, the last accepted command word (R15). -/
  cmdLast : Word
  /-- SRC (R17). -/
  src : Word
  /-- DST (R18). -/
  dst : Word
  /-- LEN (R19). -/
  len : Word
  /-- RESLEN (R20). -/
  reslen : Word
  /-- IV, read through IV_HI and IV_LO (R21). -/
  iv : Block
  /-- K, the parity-adjusted key (R23). -/
  k : Block
  /-- RK[0..15], the round keys in encryption order (R24). -/
  rk : Vector RoundKey 16
  /-- FB, the CFB feedback register (R25). -/
  fb : Block
  /-- LAT, the latched operands (R28). -/
  lat : Latch
  /-- BUF (20_memory.md R40). -/
  buf : Memory
  /-- Model: BUF_BYTES = 2^(4+bufExp), the parameter of this engine (R6). -/
  bufExp : Fin 13
  /-- Model: the answer of the last host transaction (R41). -/
  resp : Resp
  /-- Model: what acts next, oldest first (R187). -/
  sched : List Event
  /-- Model: how many draws the random source has answered (R16). -/
  draws : Nat
  /-- Model: how many free bytes abandoned commands have left (R202). -/
  freed : Nat
  /-- Model: how many hardware resets there have been (R200). -/
  epoch : Nat
  deriving DecidableEq, Repr

/-- Reasons for the machine to stop with a fault: there are none. Every error of a command completes it with a result code
and leaves the engine ready (R181), and a bus error is answered to the host without any change of state (R41). -/
inductive Fault
  deriving DecidableEq, Repr

/-- Reasons to refuse. -/
inductive Refusal where
  /-- An instruction without a meaning yet, by its mnemonic. Raised only by an arm of exec; safe (the model stops). -/
  | notModelled (mnemonic : String)
  /-- The host adapter read an ERRCODE of 13 to 15 (93_implementation_defined.md I15). Raised only by the adapter, never by
  a step of the engine, which cannot hold such a code; safe (the model stops). -/
  | reservedErrCode
  deriving DecidableEq, Repr

/-- STATUS after reset: every field 0 (R29). -/
def Status.reset : Status where
  busy := false
  done := false
  keyv := false
  ivv := false
  ivgen := false
  cmdrej := false
  errcode := .success

/-- All sixteen round keys 0 (R24). -/
def zeroKeys : Vector RoundKey 16 := Vector.replicate 16 0

/-- The machine right after a hardware reset (R29, R200), with the default buffer size, nothing answered yet and nothing
scheduled. -/
def State.reset : State where
  irqen := false
  status := Status.reset
  cmdLast := 0
  src := 0
  dst := 0
  len := 0
  reslen := 0
  iv := 0
  k := 0
  rk := zeroKeys
  fb := 0
  lat := { cmd := 0, src := 0, dst := 0, len := 0 }
  buf := []
  bufExp := Config.defaultBufExp
  resp := { rdata := 0, err := false }
  sched := []
  draws := 0
  freed := 0
  epoch := 0

end Sys2Proof.Machine
end

