-- ==== Sys2Proof/Machine/Flags.lean ====
section
/-!
DEFINITION. The flags and codes as software reads them: the ERRCODE numbers, the STATUS and CTRL words, the interrupt line
(spec 10_state.md R13, R14; 60_exceptions.md R182, R186).
-/
namespace Sys2Proof.Machine

/-- The number of a result code (R182). -/
def codeBits : ErrCode → BitVec 4
  | .success => 0
  | .invalidKeyLength => 1
  | .invalidIvLength => 2
  | .unsupportedMode => 3
  | .invalidPadding => 4
  | .invalidCiphertextEncoding => 5
  | .invalidUtf8 => 6
  | .missingIv => 7
  | .illegalCommand => 8
  | .rangeError => 9
  | .keyNotLoaded => 10
  | .invalidBlockLength => 11
  | .messageTooLong => 12

/-- The result code with a number; 13 to 15 are reserved and name none (R182). -/
def codeOfBits (b : BitVec 4) : Option ErrCode :=
  match b.toNat with
  | 0 => some .success
  | 1 => some .invalidKeyLength
  | 2 => some .invalidIvLength
  | 3 => some .unsupportedMode
  | 4 => some .invalidPadding
  | 5 => some .invalidCiphertextEncoding
  | 6 => some .invalidUtf8
  | 7 => some .missingIv
  | 8 => some .illegalCommand
  | 9 => some .rangeError
  | 10 => some .keyNotLoaded
  | 11 => some .invalidBlockLength
  | 12 => some .messageTooLong
  | _ => none

/-- The codes the engine writes to ERRCODE: 0 to 4 and 7 to 11 (R182). -/
def isEngineCode : ErrCode → Bool
  | .success => true
  | .invalidKeyLength => true
  | .invalidIvLength => true
  | .unsupportedMode => true
  | .invalidPadding => true
  | .invalidCiphertextEncoding => false
  | .invalidUtf8 => false
  | .missingIv => true
  | .illegalCommand => true
  | .rangeError => true
  | .keyNotLoaded => true
  | .invalidBlockLength => true
  | .messageTooLong => false

/-- STATUS as it reads (R14): bits 31:12 and 7:6 are 0. -/
def statusWord (st : Status) : Word :=
  (0 : BitVec 20) ++ codeBits st.errcode ++ (0 : BitVec 2) ++ BitVec.ofBool st.cmdrej ++ BitVec.ofBool st.ivgen ++
    BitVec.ofBool st.ivv ++ BitVec.ofBool st.keyv ++ BitVec.ofBool st.done ++ BitVec.ofBool st.busy

/-- A write of `v` to STATUS (R14): 1 clears DONE (bit 1) and CMDREJ (bit 5), and nothing else happens. -/
def statusWrite (v : Word) (st : Status) : Status :=
  { st with done := st.done && !v.getLsbD 1, cmdrej := st.cmdrej && !v.getLsbD 5 }

/-- CTRL as it reads (R13): IRQEN in bit 0, SRST and the reserved bits 0. -/
def ctrlWord (irqen : Bool) : Word := (0 : BitVec 31) ++ BitVec.ofBool irqen

/-- IV_HI (R21). -/
def ivHi (iv : Block) : Word := iv.extractLsb' 32 32

/-- IV_LO (R21). -/
def ivLo (iv : Block) : Word := iv.extractLsb' 0 32

/-- The interrupt line: irq = CTRL.IRQEN AND STATUS.DONE (R186). -/
def irq (s : State) : Bool := s.irqen && s.status.done

end Sys2Proof.Machine
end

