-- ==== Sys2Proof/WellFormed.lean ====
section
/-!
DEFINITION. Which commands the encoding can carry: BS of PAD and UNPAD is 1 to 255 (spec 30_encoding.md R61, R64;
a word with BS = 0 there is IllegalCommand).
-/
namespace Sys2Proof

/-- The command has an encoding: a PAD or UNPAD block size is not 0 (R61, R63). -/
def Instr.wf : Instr → Bool
  | .nop => true
  | .keyld => true
  | .ivld => true
  | .encb => true
  | .decb => true
  | .ecbenc => true
  | .cfbenc => true
  | .ecbdec => true
  | .cfbdec => true
  | .pad bs => bs != 0
  | .unpad bs => bs != 0
  | .zeroize => true

end Sys2Proof
end

