-- ==== Sys2Proof/Decode.lean ====
section
/-!
DEFINITION. The command word: its fields, the total decode of every 32-bit word with its two error outcomes, the encoder,
and the host's numbering of a table word (spec 30_encoding.md R60 to R65).
-/
namespace Sys2Proof

/-- What a command word decodes to (R64): a command, or one of the two error outcomes. -/
inductive Decoded where
  /-- A command of R63. -/
  | command (i : Instr)
  /-- An illegal encoding (R65): completes with IllegalCommand. -/
  | illegal
  /-- OP 5 or 6 with MODE 2 or 3 (R65): completes with UnsupportedMode. -/
  | unsupported
  deriving DecidableEq, Repr

/-- OP = w[3:0] (R61). -/
def wordOp (w : Word) : BitVec 4 := w.extractLsb' 0 4

/-- MODE = w[5:4] (R61). -/
def wordMode (w : Word) : BitVec 2 := w.extractLsb' 4 2

/-- RSV0 = w[7:6] (R61). -/
def wordRsv0 (w : Word) : BitVec 2 := w.extractLsb' 6 2

/-- BS = w[15:8] (R61). -/
def wordBs (w : Word) : BitVec 8 := w.extractLsb' 8 8

/-- RSV1 = w[31:16] (R61). -/
def wordRsv1 (w : Word) : BitVec 16 := w.extractLsb' 16 16

/-- OP is one that carries a block size: PAD or UNPAD (R64). -/
def isPadOp (op : BitVec 4) : Bool := op == 7 || op == 8

/-- OP is one that carries a mode: message encryption or decryption (R64). -/
def isModeOp (op : BitVec 4) : Bool := op == 5 || op == 6

/-- OP is that of a cipher command, whose completion scrubs the key state (10_state.md R27). -/
def isCipherOp (op : BitVec 4) : Bool := op == 3 || op == 4 || op == 5 || op == 6

/-- The table of R63, read after the tests of R64 have passed. -/
def commandOf (op : BitVec 4) (mode : BitVec 2) (bs : BitVec 8) : Decoded :=
  match op.toNat, mode.toNat with
  | 0, _ => .command .nop
  | 1, _ => .command .keyld
  | 2, _ => .command .ivld
  | 3, _ => .command .encb
  | 4, _ => .command .decb
  | 5, 0 => .command .ecbenc
  | 5, _ => .command .cfbenc
  | 6, 0 => .command .ecbdec
  | 6, _ => .command .cfbdec
  | 7, _ => .command (.pad bs)
  | 8, _ => .command (.unpad bs)
  | 9, _ => .command .zeroize
  | _, _ => .illegal

/-- R64, its tests in its order: the first that holds gives the result. -/
def decode (w : Word) : Decoded :=
  let op := wordOp w
  let mode := wordMode w
  let bs := wordBs w
  if wordRsv1 w ≠ 0 ∨ wordRsv0 w ≠ 0 then .illegal
  else if 10 ≤ op.toNat then .illegal
  else if isPadOp op = true ∧ bs = 0 then .illegal
  else if isPadOp op = false ∧ bs ≠ 0 then .illegal
  else if isModeOp op = true ∧ (mode = 2 ∨ mode = 3) then .unsupported
  else if isModeOp op = false ∧ mode ≠ 0 then .illegal
  else commandOf op mode bs

/-- The OP field of a command (R63). -/
def opField : Instr → BitVec 4
  | .nop => 0x0
  | .keyld => 0x1
  | .ivld => 0x2
  | .encb => 0x3
  | .decb => 0x4
  | .ecbenc => 0x5
  | .cfbenc => 0x5
  | .ecbdec => 0x6
  | .cfbdec => 0x6
  | .pad _ => 0x7
  | .unpad _ => 0x8
  | .zeroize => 0x9

/-- The MODE field of a command (R63). -/
def modeField : Instr → BitVec 2
  | .nop => 0
  | .keyld => 0
  | .ivld => 0
  | .encb => 0
  | .decb => 0
  | .ecbenc => 0
  | .cfbenc => 1
  | .ecbdec => 0
  | .cfbdec => 1
  | .pad _ => 0
  | .unpad _ => 0
  | .zeroize => 0

/-- The BS field of a command (R63). -/
def bsField : Instr → BitVec 8
  | .nop => 0
  | .keyld => 0
  | .ivld => 0
  | .encb => 0
  | .decb => 0
  | .ecbenc => 0
  | .cfbenc => 0
  | .ecbdec => 0
  | .cfbdec => 0
  | .pad bs => bs
  | .unpad bs => bs
  | .zeroize => 0

/-- The word with the given fields, RSV0 = RSV1 = 0: `R..R bbbbbbbb rr mm oooo` (R61). -/
def commandWord (op : BitVec 4) (mode : BitVec 2) (bs : BitVec 8) : Word :=
  (0 : BitVec 16) ++ bs ++ (0 : BitVec 2) ++ mode ++ op

/-- The word of a command (R63). -/
def encode (i : Instr) : Word := commandWord (opField i) (modeField i) (bsField i)

/-- The operands each command uses (R63). -/
def operandsOf : Instr → List Operand
  | .nop => []
  | .keyld => [.src, .len]
  | .ivld => [.src, .len]
  | .encb => [.src, .dst, .len]
  | .decb => [.src, .dst, .len]
  | .ecbenc => [.src, .dst, .len]
  | .cfbenc => [.src, .dst, .len]
  | .ecbdec => [.src, .dst, .len]
  | .cfbdec => [.src, .dst, .len]
  | .pad _ => [.src, .dst, .len, .bs]
  | .unpad _ => [.src, .dst, .len, .bs]
  | .zeroize => []

/-- The 32-bit word whose low `nbits` bits are those of `w` and whose other bits are 0. -/
def tableWord (nbits w : Nat) : Word := BitVec.ofNat 32 (w % 2 ^ nbits)

/-- The command the decoder reads from a table word. Every command is one 32-bit word (R60), so there is none wider. -/
def decodeTableWord (nbits w : Nat) : Option Instr :=
  if nbits ≤ 32 then
    match decode (tableWord nbits w) with
    | .command i => some i
    | .illegal => none
    | .unsupported => none
  else none

end Sys2Proof
end

