-- ==== Sys2Proof/Machine/Bits.lean ====
section
/-!
DEFINITION. Bit and byte order: DES bit numbering, table permutation, rotation, and the conversion between byte strings and
64-bit values (spec 00_scope.md R7, R8; 40_des_primitives.md R80 to R82; 20_memory.md R48).
-/
namespace Sys2Proof.Machine

/-- DES bit i of an N-bit value, 1 ≤ i ≤ N: DES bit 1 is the most significant bit (R8). -/
def desBit (v : BitVec n) (i : Nat) : Bool := v.getLsbD (n - i)

/-- The number whose bits, most significant first, are the given ones. -/
def bitsToNat (bs : List Bool) : Nat := bs.foldl (fun acc b => 2 * acc + b.toNat) 0

/-- Table permutation (R82): DES bit j of the result is DES bit T[j] of `v`. The result has `m` bits, the length of the
table. -/
def permute (m : Nat) (v : BitVec n) (table : List Nat) : BitVec m :=
  BitVec.ofNat m (bitsToNat (table.map (desBit v)))

/-- rotl_28 (R81). -/
def rotl28 (v : BitVec 28) (s : Nat) : BitVec 28 := (v <<< s) ||| (v >>> (28 - s))

/-- The number of 1 bits (R7). -/
def popcount (v : BitVec n) : Nat := ((List.range n).filter (fun i => v.getLsbD i)).length

/-- The number whose bytes, most significant first, are the given ones. -/
def bytesToNat (bs : Bytes) : Nat := bs.foldl (fun acc b => 256 * acc + b.toNat) 0

/-- be(B) of an 8-byte string: B[0] is the most significant byte (R8, R48, R80). -/
def be64 (bs : Bytes) : Block := BitVec.ofNat 64 (bytesToNat bs)

/-- bytes_8(v): the bytes of a 64-bit value, most significant first (R8, R48). -/
def bytes8 (v : Block) : Bytes :=
  [v.extractLsb' 56 8, v.extractLsb' 48 8, v.extractLsb' 40 8, v.extractLsb' 32 8,
   v.extractLsb' 24 8, v.extractLsb' 16 8, v.extractLsb' 8 8, v.extractLsb' 0 8]

/-- bytes_4(v): the bytes of a 32-bit value, most significant first (R8). -/
def bytes4 (v : Word) : Bytes :=
  [v.extractLsb' 24 8, v.extractLsb' 16 8, v.extractLsb' 8 8, v.extractLsb' 0 8]

/-- Bytewise XOR of a segment with the first bytes of a keystream (R146). -/
def xorBytes (p ks : Bytes) : Bytes := List.zipWith (fun a b => a ^^^ b) p (ks.take p.length)

/-- The segments of 8 bytes of a byte string, the last possibly shorter, none for the empty string (R146). -/
def segments (m : Bytes) : List Bytes :=
  (List.range ((m.length + 7) / 8)).map (fun j => (m.drop (8 * j)).take 8)

end Sys2Proof.Machine
end

