-- ==== Sys2Proof/Machine/Des.lean ====
section
/-!
DEFINITION. The DES primitives: constant tables, key schedule, round function and block core (spec 40_des_primitives.md
R80 to R101; the tables are the ones those rules print, as 91_not_in_source.md N1 requires).
-/
namespace Sys2Proof.Machine

/-- IP, the initial permutation: 64 of 64 (R83). -/
def tableIP : List Nat :=
  [58, 50, 42, 34, 26, 18, 10,  2,
   60, 52, 44, 36, 28, 20, 12,  4,
   62, 54, 46, 38, 30, 22, 14,  6,
   64, 56, 48, 40, 32, 24, 16,  8,
   57, 49, 41, 33, 25, 17,  9,  1,
   59, 51, 43, 35, 27, 19, 11,  3,
   61, 53, 45, 37, 29, 21, 13,  5,
   63, 55, 47, 39, 31, 23, 15,  7]

/-- IP⁻¹, the final permutation: 64 of 64 (R84). -/
def tableIPinv : List Nat :=
  [40,  8, 48, 16, 56, 24, 64, 32,
   39,  7, 47, 15, 55, 23, 63, 31,
   38,  6, 46, 14, 54, 22, 62, 30,
   37,  5, 45, 13, 53, 21, 61, 29,
   36,  4, 44, 12, 52, 20, 60, 28,
   35,  3, 43, 11, 51, 19, 59, 27,
   34,  2, 42, 10, 50, 18, 58, 26,
   33,  1, 41,  9, 49, 17, 57, 25]

/-- E, the expansion: 48 of 32 (R85). -/
def tableE : List Nat :=
  [32,  1,  2,  3,  4,  5,
    4,  5,  6,  7,  8,  9,
    8,  9, 10, 11, 12, 13,
   12, 13, 14, 15, 16, 17,
   16, 17, 18, 19, 20, 21,
   20, 21, 22, 23, 24, 25,
   24, 25, 26, 27, 28, 29,
   28, 29, 30, 31, 32,  1]

/-- P, the round permutation: 32 of 32 (R86). -/
def tableP : List Nat :=
  [16,  7, 20, 21,
   29, 12, 28, 17,
    1, 15, 23, 26,
    5, 18, 31, 10,
    2,  8, 24, 14,
   32, 27,  3,  9,
   19, 13, 30,  6,
   22, 11,  4, 25]

/-- PC-1, permuted choice 1: 56 of 64, no parity bit (R87). -/
def tablePC1 : List Nat :=
  [57, 49, 41, 33, 25, 17,  9,
    1, 58, 50, 42, 34, 26, 18,
   10,  2, 59, 51, 43, 35, 27,
   19, 11,  3, 60, 52, 44, 36,
   63, 55, 47, 39, 31, 23, 15,
    7, 62, 54, 46, 38, 30, 22,
   14,  6, 61, 53, 45, 37, 29,
   21, 13,  5, 28, 20, 12,  4]

/-- PC-2, permuted choice 2: 48 of 56 (R88). -/
def tablePC2 : List Nat :=
  [14, 17, 11, 24,  1,  5,
    3, 28, 15,  6, 21, 10,
   23, 19, 12,  4, 26,  8,
   16,  7, 27, 20, 13,  2,
   41, 52, 31, 37, 47, 55,
   30, 40, 51, 45, 33, 48,
   44, 49, 39, 56, 34, 53,
   46, 42, 50, 36, 29, 32]

/-- S1, row-major, 4 rows of 16 (R89). -/
def sBox1 : List Nat :=
  [14,  4, 13,  1,  2, 15, 11,  8,  3, 10,  6, 12,  5,  9,  0,  7,
    0, 15,  7,  4, 14,  2, 13,  1, 10,  6, 12, 11,  9,  5,  3,  8,
    4,  1, 14,  8, 13,  6,  2, 11, 15, 12,  9,  7,  3, 10,  5,  0,
   15, 12,  8,  2,  4,  9,  1,  7,  5, 11,  3, 14, 10,  0,  6, 13]

/-- S2, row-major, 4 rows of 16 (R89). -/
def sBox2 : List Nat :=
  [15,  1,  8, 14,  6, 11,  3,  4,  9,  7,  2, 13, 12,  0,  5, 10,
    3, 13,  4,  7, 15,  2,  8, 14, 12,  0,  1, 10,  6,  9, 11,  5,
    0, 14,  7, 11, 10,  4, 13,  1,  5,  8, 12,  6,  9,  3,  2, 15,
   13,  8, 10,  1,  3, 15,  4,  2, 11,  6,  7, 12,  0,  5, 14,  9]

/-- S3, row-major, 4 rows of 16 (R89). -/
def sBox3 : List Nat :=
  [10,  0,  9, 14,  6,  3, 15,  5,  1, 13, 12,  7, 11,  4,  2,  8,
   13,  7,  0,  9,  3,  4,  6, 10,  2,  8,  5, 14, 12, 11, 15,  1,
   13,  6,  4,  9,  8, 15,  3,  0, 11,  1,  2, 12,  5, 10, 14,  7,
    1, 10, 13,  0,  6,  9,  8,  7,  4, 15, 14,  3, 11,  5,  2, 12]

/-- S4, row-major, 4 rows of 16 (R89). -/
def sBox4 : List Nat :=
  [ 7, 13, 14,  3,  0,  6,  9, 10,  1,  2,  8,  5, 11, 12,  4, 15,
   13,  8, 11,  5,  6, 15,  0,  3,  4,  7,  2, 12,  1, 10, 14,  9,
   10,  6,  9,  0, 12, 11,  7, 13, 15,  1,  3, 14,  5,  2,  8,  4,
    3, 15,  0,  6, 10,  1, 13,  8,  9,  4,  5, 11, 12,  7,  2, 14]

/-- S5, row-major, 4 rows of 16 (R89). -/
def sBox5 : List Nat :=
  [ 2, 12,  4,  1,  7, 10, 11,  6,  8,  5,  3, 15, 13,  0, 14,  9,
   14, 11,  2, 12,  4,  7, 13,  1,  5,  0, 15, 10,  3,  9,  8,  6,
    4,  2,  1, 11, 10, 13,  7,  8, 15,  9, 12,  5,  6,  3,  0, 14,
   11,  8, 12,  7,  1, 14,  2, 13,  6, 15,  0,  9, 10,  4,  5,  3]

/-- S6, row-major, 4 rows of 16 (R89). -/
def sBox6 : List Nat :=
  [12,  1, 10, 15,  9,  2,  6,  8,  0, 13,  3,  4, 14,  7,  5, 11,
   10, 15,  4,  2,  7, 12,  9,  5,  6,  1, 13, 14,  0, 11,  3,  8,
    9, 14, 15,  5,  2,  8, 12,  3,  7,  0,  4, 10,  1, 13, 11,  6,
    4,  3,  2, 12,  9,  5, 15, 10, 11, 14,  1,  7,  6,  0,  8, 13]

/-- S7, row-major, 4 rows of 16 (R89). -/
def sBox7 : List Nat :=
  [ 4, 11,  2, 14, 15,  0,  8, 13,  3, 12,  9,  7,  5, 10,  6,  1,
   13,  0, 11,  7,  4,  9,  1, 10, 14,  3,  5, 12,  2, 15,  8,  6,
    1,  4, 11, 13, 12,  3,  7, 14, 10, 15,  6,  8,  0,  5,  9,  2,
    6, 11, 13,  8,  1,  4, 10,  7,  9,  5,  0, 15, 14,  2,  3, 12]

/-- S8, row-major, 4 rows of 16 (R89). -/
def sBox8 : List Nat :=
  [13,  2,  8,  4,  6, 15, 11,  1, 10,  9,  3, 14,  5,  0, 12,  7,
    1, 15, 13,  8, 10,  3,  7,  4, 12,  5,  6, 11,  0, 14,  9,  2,
    7, 11,  4,  1,  9, 12, 14,  2,  0,  6, 10, 13, 15,  3,  5,  8,
    2,  1, 14,  7,  4, 10,  8, 13, 15, 12,  9,  0,  3,  5,  6, 11]

/-- S_BOXES[0..7] (R89). -/
def sBoxes : List (List Nat) := [sBox1, sBox2, sBox3, sBox4, sBox5, sBox6, sBox7, sBox8]

/-- SHIFT[r] for round r = 1..16 (R90). -/
def shiftOf (r : Nat) : Nat := if r = 1 ∨ r = 2 ∨ r = 9 ∨ r = 16 then 1 else 2

/-- (C_r, D_r): the key halves after r rounds, C_0 and D_0 from PC-1 (R91). -/
def keyHalves (kv : Block) : Nat → BitVec 28 × BitVec 28
  | 0 =>
    let cd := permute 56 kv tablePC1
    (cd.extractLsb' 28 28, cd.extractLsb' 0 28)
  | r + 1 =>
    let (c, d) := keyHalves kv r
    (rotl28 c (shiftOf (r + 1)), rotl28 d (shiftOf (r + 1)))

/-- The round key of round r = 1..16, RKs[r-1] (R91). -/
def roundKeyOf (kv : Block) (r : Nat) : RoundKey :=
  let (c, d) := keyHalves kv r
  permute 48 (c ++ d) tablePC2

/-- KeySchedule (R91): the sixteen round keys in encryption order. -/
def keySchedule (kv : Block) : Vector RoundKey 16 := Vector.ofFn (fun i => roundKeyOf kv (i.val + 1))

/-- The 6-bit group g_i of X, i = 0..7 (R95). -/
def sGroup (x : BitVec 48) (i : Nat) : BitVec 6 := x.extractLsb' (42 - 6 * i) 6

/-- Row of a group: its first and last bit (R95; 90_conflicts.md C4: bit 0 is the most significant bit). -/
def sRow (g : BitVec 6) : Nat := 2 * (g.getLsbD 5).toNat + (g.getLsbD 0).toNat

/-- Column of a group: its middle four bits (R95). -/
def sCol (g : BitVec 6) : Nat := (g.extractLsb' 1 4).toNat

/-- s_i: the output of box i+1 on group i (R95). -/
def sOut (x : BitVec 48) (i : Nat) : BitVec 4 :=
  BitVec.ofNat 4 ((sBoxes.getD i []).getD (sRow (sGroup x i) * 16 + sCol (sGroup x i)) 0)

/-- S-box substitution, s_0 most significant (R95). -/
def sboxSubst (x : BitVec 48) : BitVec 32 :=
  sOut x 0 ++ sOut x 1 ++ sOut x 2 ++ sOut x 3 ++ sOut x 4 ++ sOut x 5 ++ sOut x 6 ++ sOut x 7

/-- Expansion and key mixing (R93, R94). -/
def mixKey (r : BitVec 32) (k : RoundKey) : BitVec 48 := permute 48 r tableE ^^^ k

/-- The round function f (R96). -/
def feistel (r : BitVec 32) (k : RoundKey) : BitVec 32 := permute 32 (sboxSubst (mixKey r k)) tableP

/-- One round (R98). -/
def desRound (lr : BitVec 32 × BitVec 32) (k : RoundKey) : BitVec 32 × BitVec 32 :=
  (lr.2, lr.1 ^^^ feistel lr.2 k)

/-- Direction of the block core (R99). -/
inductive Dir where
  /-- Encryption: round keys RK[0] to RK[15]. -/
  | enc
  /-- Decryption: round keys RK[15] to RK[0]. -/
  | dec
  deriving DecidableEq, Repr

/-- The order in which the rounds take the round keys (R99). -/
def keyOrder (rk : Vector RoundKey 16) : Dir → List RoundKey
  | .enc => rk.toList
  | .dec => rk.toList.reverse

/-- The block core (R99): IP, sixteen rounds, the halves swapped, IP⁻¹. -/
def desBlock (x : Block) (rk : Vector RoundKey 16) (dir : Dir) : Block :=
  let v := permute 64 x tableIP
  let lr := (keyOrder rk dir).foldl desRound (v.extractLsb' 32 32, v.extractLsb' 0 32)
  permute 64 (lr.2 ++ lr.1) tableIPinv

/-- EncryptBlock (R100). -/
def encryptBlock (rk : Vector RoundKey 16) (b : Bytes) : Bytes := bytes8 (desBlock (be64 b) rk .enc)

/-- DecryptBlock (R100). -/
def decryptBlock (rk : Vector RoundKey 16) (b : Bytes) : Bytes := bytes8 (desBlock (be64 b) rk .dec)

/-- A key byte with odd parity: the low bit is flipped where the count of 1 bits is even (R114). -/
def oddByte (b : Byte) : Byte := if popcount b % 2 = 1 then b else b ^^^ 1

/-- ParityAdjust (R114). -/
def parityAdjust (bs : Bytes) : Bytes := bs.map oddByte

end Sys2Proof.Machine
end

