-- ==== Sys2Proof/Machine/Ops.lean ====
section
/-!
DEFINITION. The named operations over memory and registers: BUF bytes (spec 20_memory.md R44), the free values, the accept
of a command (10_state.md R15), the scrub (R27), and completion with a result code, which is how the engine takes an error
(60_exceptions.md R180, R181).
-/
namespace Sys2Proof.Machine

/-- BUF_BYTES of this engine (R6): a power of two from 16 to 65536. -/
def State.bufBytes (s : State) : Nat := 2 ^ (4 + s.bufExp.val)

/-- The listed byte at an address, if any. -/
def Memory.read : Memory → Nat → Option Byte
  | [], _ => none
  | c :: m, a => if c.1 = a then some c.2 else Memory.read m a

/-- Lists a byte at an address, keeping the addresses strictly rising. -/
def Memory.write : Memory → Nat → Byte → Memory
  | [], a, v => [(a, v)]
  | c :: m, a, v =>
    if a < c.1 then (a, v) :: c :: m
    else if a = c.1 then (a, v) :: m
    else c :: Memory.write m a v

/-- Lists a byte string at consecutive addresses. -/
def Memory.writeAll : Memory → Nat → Bytes → Memory
  | m, _, [] => m
  | m, a, v :: vs => Memory.writeAll (Memory.write m a v) (a + 1) vs

/-- The canonical form: addresses strictly rising. -/
abbrev Memory.wf (m : Memory) : Prop := List.Pairwise (fun x y => x.1 < y.1) m

/-- BUF[a]: the written byte, else the free value the last hardware reset left there (R29, R200). -/
def byteAt (s : State) (a : Nat) : Byte := (Memory.read s.buf a).getD (Config.bufInit s.epoch a)

/-- MemRead(a, n) (R44). -/
def memRead (s : State) (a n : Nat) : Bytes := (List.range n).map (fun j => byteAt s (a + j))

/-- MemWrite(a, n, S) with n = len(S) (R44). -/
def memWrite (s : State) (a : Nat) (bs : Bytes) : State := { s with buf := Memory.writeAll s.buf a bs }

/-- The next n free bytes for an abandoned region (R202). -/
def freeBytes (s : State) (n : Nat) : Bytes := (List.range n).map (fun j => Config.abandonedByte (s.freed + j))

/-- draw_rng() (R16, R150): the free 64-bit answer, and the state after it. -/
def drawRng (s : State) : Block × State := (Config.rngDraw s.draws, { s with draws := s.draws + 1 })

/-- The accept of command word `w` (R15): the operands are latched and the results of the last command cleared. -/
def accept (w : Word) (s : State) : State :=
  { s with
    lat := { cmd := w, src := s.src, dst := s.dst, len := s.len }
    cmdLast := w
    reslen := 0
    status := { s.status with busy := true, done := false, errcode := .success, ivgen := false } }

/-- Scrub (R27): K, RK, FB, KEYV and IVV cleared; IV and IVGEN keep their values. -/
def scrub (s : State) : State :=
  { s with k := 0, rk := zeroKeys, fb := 0, status := { s.status with keyv := false, ivv := false } }

/-- The scrub where the command's OP asks for it (R27, R180). -/
def scrubFor (op : BitVec 4) (s : State) : State := if isCipherOp op then scrub s else s

/-- Complete(code) (R180), after the command's own writes: ERRCODE, then the scrub for OP 3 to 6, then BUSY and DONE.
`op` is LAT.CMD[3:0]: a command passes its own OP field, which is that of the word it was decoded from. -/
def complete (op : BitVec 4) (code : ErrCode) (s : State) : State :=
  let t := scrubFor op { s with status := { s.status with errcode := code } }
  { t with status := { t.status with busy := false, done := true } }

/-- FailKey() (R110): any loaded key is discarded. -/
def failKey (s : State) : State :=
  { s with k := 0, rk := zeroKeys, status := { s.status with keyv := false } }

/-- The successful end of KEYLD (R110): K, RK and KEYV written, RESLEN 0. -/
def loadKey (key : Block) (s : State) : State :=
  { s with k := key, rk := keySchedule key, reslen := 0, status := { s.status with keyv := true } }

/-- The failed end of IVLD (R111): IVV cleared, IV kept. -/
def failIv (s : State) : State := { s with status := { s.status with ivv := false } }

/-- The successful end of IVLD (R111): IV and IVV written, RESLEN 0. -/
def loadIv (iv : Block) (s : State) : State :=
  { s with iv := iv, reslen := 0, status := { s.status with ivv := true } }

/-- Clears all key and IV state (R112). -/
def zeroizeState (s : State) : State :=
  { s with
    k := 0, rk := zeroKeys, fb := 0, iv := 0, reslen := 0
    status := { s.status with keyv := false, ivv := false } }

/-- RESLEN <- n (R20). -/
def setReslen (n : Nat) (s : State) : State := { s with reslen := BitVec.ofNat 32 n }

/-- The output of a successful command: the bytes at LAT.DST and RESLEN their count (R20, R47). -/
def writeOutput (out : Bytes) (s : State) : State := setReslen out.length (memWrite s s.lat.dst.toNat out)

/-- SelectIvForEncrypt (R150): the loaded IV, or a drawn one, which goes to IV and sets IVGEN but not IVV. -/
def selectIv (s : State) : Block × State :=
  if s.status.ivv then (s.iv, s)
  else
    let d := drawRng s
    (d.1, { d.2 with iv := d.1, status := { d.2.status with ivgen := true } })

/-- FB <- v (R25). -/
def setFeedback (v : Block) (s : State) : State := { s with fb := v }

end Sys2Proof.Machine
end

