-- ==== Sys2Proof/Machine/Padding.lean ====
section
/-!
DEFINITION. The PKCS#7 padding functions (spec 43_padding_commands.md R130, R131).
-/
namespace Sys2Proof.Machine

/-- The pad length of a string of n bytes (R130). -/
def padCount (n bs : Nat) : Nat := bs - n % bs

/-- The length of the padded string (R130, R132, R140). -/
def paddedLen (n bs : Nat) : Nat := n + padCount n bs

/-- p bytes of value p (R130). -/
def padTail (p : Nat) : Bytes := List.replicate p (BitVec.ofNat 8 p)

/-- Pad(D, bs) (R130). -/
def padBytes (d : Bytes) (bs : Nat) : Bytes := d ++ padTail (padCount d.length bs)

/-- Unpad(D, bs) (R131): `none` is Fail, its four conditions in the rule's order. -/
def unpadBytes (d : Bytes) (bs : Nat) : Option Bytes :=
  let l := d.length
  let x := (d.getLastD 0).toNat
  if l = 0 then none
  else if l % bs ≠ 0 then none
  else if x = 0 ∨ bs < x then none
  else if d.drop (l - x) ≠ padTail x then none
  else some (d.take (l - x))

end Sys2Proof.Machine
end

