-- ==== Sys2Proof/Machine/Operands.lean ====
section
/-!
DEFINITION. The operand forms: the input and output regions of BUF that a command's latched operands name, and their range
and overlap checks (spec 20_memory.md R45, R46; 30_encoding.md R62).
-/
namespace Sys2Proof.Machine

/-- A region (a, n) of BUF (R45). -/
structure Region where
  start : Nat
  len : Nat
  deriving DecidableEq, Repr

/-- The input region (LAT.SRC, LAT.LEN). -/
def inputRegion (l : Latch) : Region := { start := l.src.toNat, len := l.len.toNat }

/-- The output region (LAT.DST, LAT.LEN) of a command whose output is at most as long as its input. -/
def sameRegion (l : Latch) : Region := { start := l.dst.toNat, len := l.len.toNat }

/-- The output region (LAT.DST, padded length) of a padding command (R132, R140). -/
def paddedRegion (l : Latch) (bs : Nat) : Region := { start := l.dst.toNat, len := paddedLen l.len.toNat bs }

/-- The output region a command's rule states for its range check, if the command has one. A PAD with block size 0 is no
command (R64) and has none. -/
def outputRegion : Instr → Latch → Option Region
  | .nop, _ => none
  | .keyld, _ => none
  | .ivld, _ => none
  | .encb, l => some (sameRegion l)
  | .decb, l => some (sameRegion l)
  | .ecbenc, l => some (paddedRegion l 8)
  | .cfbenc, l => some (sameRegion l)
  | .ecbdec, l => some (sameRegion l)
  | .cfbdec, l => some (sameRegion l)
  | .pad bs, l => if bs = 0 then none else some (paddedRegion l bs.toNat)
  | .unpad bs, l => if bs = 0 then none else some (sameRegion l)
  | .zeroize, _ => none

/-- In range (R45): computed exactly, without a 32-bit wrap. -/
def inRange (s : State) (r : Region) : Bool := decide (r.start + r.len ≤ s.bufBytes)

/-- Compatible (R46): equal starts, or one empty, or disjoint. -/
def compatible (i o : Region) : Bool :=
  decide (i.start = o.start) || decide (i.len = 0) || decide (o.len = 0) ||
    decide (i.start + i.len ≤ o.start) || decide (o.start + o.len ≤ i.start)

/-- Input in range, output in range, the two compatible: else the command ends with RangeError (R183). -/
def regionsOk (s : State) (i o : Region) : Bool := inRange s i && inRange s o && compatible i o

/-- The bytes of the input region (R47). -/
def inputBytes (s : State) : Bytes := memRead s s.lat.src.toNat s.lat.len.toNat

end Sys2Proof.Machine
end

