-- ==== Sys2Proof/Machine/Reset.lean ====
section
/-!
DEFINITION. The abandoned command, the soft reset and the hardware reset (spec 70_reset_and_hazards.md R200 to R202).
-/
namespace Sys2Proof.Machine

/-- The output region of the running command, when there is one and it is in range (R202). -/
def abandonedRegion (s : State) : Option Region :=
  if s.status.busy then
    match decode s.lat.cmd with
    | .command i => (outputRegion i s.lat).filter (inRange s)
    | .illegal => none
    | .unsupported => none
  else none

/-- The bytes of the running command's output region become free values (R202). -/
def abandon (s : State) : State :=
  match abandonedRegion s with
  | some r => { memWrite s r.start (freeBytes s r.len) with freed := s.freed + r.len }
  | none => s

/-- Soft reset (R201): every register and internal state to its reset value; BUF is kept but for an abandoned command's
output region. The model's own fields are kept. -/
def softReset (s : State) : State :=
  let t := abandon s
  { State.reset with
    buf := t.buf, freed := t.freed, bufExp := s.bufExp, resp := s.resp, sched := s.sched, draws := s.draws,
    epoch := s.epoch }

/-- Hardware reset (R200), from the assertion of the reset input to its deassertion: every register at its reset value and
every byte of BUF a new free value. The parameter, the schedule and the other counters are kept. -/
def hardReset (s : State) : State :=
  { State.reset with
    bufExp := s.bufExp, sched := s.sched, draws := s.draws, freed := s.freed, epoch := s.epoch + 1 }

end Sys2Proof.Machine
end

