-- ==== Sys2Proof/Machine/Bus.lean ====
section
/-!
DEFINITION. The host bus: the register map, register transactions, BUF-window transactions and bus errors (spec 10_state.md
R12 to R22; 20_memory.md R40 to R43, R49).
-/
namespace Sys2Proof.Machine

/-- The host-visible registers (10_state.md section 2). -/
inductive Reg where
  | id
  | ctrl
  | status
  | cmd
  | src
  | dst
  | len
  | reslen
  | ivHi
  | ivLo
  deriving DecidableEq, Repr

/-- The register at an aligned offset of the register region; the others are reserved (R22). -/
def regAt (off : Nat) : Option Reg :=
  match off with
  | 0x000 => some .id
  | 0x004 => some .ctrl
  | 0x008 => some .status
  | 0x00C => some .cmd
  | 0x010 => some .src
  | 0x014 => some .dst
  | 0x018 => some .len
  | 0x01C => some .reslen
  | 0x020 => some .ivHi
  | 0x024 => some .ivLo
  | _ => none

/-- The offset of a register (10_state.md section 2). -/
def regOffset : Reg → BitVec 17
  | .id => 0x000
  | .ctrl => 0x004
  | .status => 0x008
  | .cmd => 0x00C
  | .src => 0x010
  | .dst => 0x014
  | .len => 0x018
  | .reslen => 0x01C
  | .ivHi => 0x020
  | .ivLo => 0x024

/-- What a register reads as (R12 to R21). Reads have no side effect (R42). -/
def readReg (r : Reg) (s : State) : Word :=
  match r with
  | .id => Config.idValue
  | .ctrl => ctrlWord s.irqen
  | .status => statusWord s.status
  | .cmd => s.cmdLast
  | .src => s.src
  | .dst => s.dst
  | .len => s.len
  | .reslen => s.reslen
  | .ivHi => ivHi s.iv
  | .ivLo => ivLo s.iv

/-- A write of CTRL (R13): SRST = 1 is the soft reset, and then IRQEN of the same write is discarded. -/
def writeCtrl (v : Word) (s : State) : State :=
  if v.getLsbD 1 then softReset s else { s with irqen := v.getLsbD 0 }

/-- A write of CMD (R15): rejected while BUSY, else accepted, whatever the word. -/
def writeCmd (w : Word) (s : State) : State :=
  if s.status.busy then { s with status := { s.status with cmdrej := true } } else accept w s

/-- What a write to a register does (R12 to R21). -/
def writeReg (r : Reg) (v : Word) (s : State) : State :=
  match r with
  | .id => s
  | .ctrl => writeCtrl v s
  | .status => { s with status := statusWrite v s.status }
  | .cmd => writeCmd v s
  | .src => { s with src := v }
  | .dst => { s with dst := v }
  | .len => { s with len := v }
  | .reslen => s
  | .ivHi => s
  | .ivLo => s

/-- The state with the answer of the transaction just performed (R41). -/
def answer (d : Word) (e : Bool) (s : State) : State := { s with resp := { rdata := d, err := e } }

/-- A bus error: no engine state changes and rdata is 0 (R41). -/
def busError (s : State) : State := answer 0 true s

/-- A register-region transaction, offset below 0x10000 (R42, R22). -/
def regTransaction (t : Tx) (s : State) : State :=
  if t.size = .s32 ∧ t.offset.toNat % 4 = 0 then
    match regAt t.offset.toNat, t.write with
    | some r, true => answer 0 false (writeReg r t.wdata s)
    | some r, false => answer (readReg r s) false s
    | none, _ => answer 0 false s
  else busError s

/-- B(x) of R43: the byte of BUF, or 0 past BUF_BYTES. -/
def windowByte (s : State) (a : Nat) : Byte := if a < s.bufBytes then byteAt s a else 0

/-- A byte written through the window: ignored past BUF_BYTES (R43). -/
def writeWindowByte (a : Nat) (v : Byte) (s : State) : State := if a < s.bufBytes then memWrite s a [v] else s

/-- A 32-bit read through the window: the lowest address in bits 31:24 (R43, R49). -/
def readWindowWord (s : State) (a : Nat) : Word :=
  windowByte s a ++ windowByte s (a + 1) ++ windowByte s (a + 2) ++ windowByte s (a + 3)

/-- A 32-bit write through the window, byte lane by byte lane (R43, R49). -/
def writeWindowWord (a : Nat) (v : Word) (s : State) : State :=
  writeWindowByte (a + 3) (v.extractLsb' 0 8)
    (writeWindowByte (a + 2) (v.extractLsb' 8 8)
      (writeWindowByte (a + 1) (v.extractLsb' 16 8) (writeWindowByte a (v.extractLsb' 24 8) s)))

/-- A BUF-window transaction at buffer address `a` (R43). -/
def bufTransaction (t : Tx) (a : Nat) (s : State) : State :=
  if s.status.busy then busError s
  else
    match t.size, t.write with
    | .s8, true => answer 0 false (writeWindowByte a (t.wdata.extractLsb' 0 8) s)
    | .s8, false => answer ((windowByte s a).zeroExtend 32) false s
    | .s16, _ => busError s
    | .s32, true => if a % 4 = 0 then answer 0 false (writeWindowWord a t.wdata s) else busError s
    | .s32, false => if a % 4 = 0 then answer (readWindowWord s a) false s else busError s

/-- One host transaction, complete before the next begins (R41). -/
def transact (t : Tx) (s : State) : State :=
  if t.offset.toNat < 0x10000 then regTransaction t s else bufTransaction t (t.offset.toNat - 0x10000) s

end Sys2Proof.Machine
end

