-- ==== Sys2Proof/Machine/BlockCommands.lean ====
section
/-!
DEFINITION. ENCB and DECB (spec 42_block_commands.md R120 to R122).
-/
namespace Sys2Proof.Machine

/-- A single-block command with block function `f` (R120): regions, then length, then key. -/
def runBlock (op : BitVec 4) (f : Vector RoundKey 16 → Bytes → Bytes) (s : State) : State :=
  if regionsOk s (inputRegion s.lat) (sameRegion s.lat) = false then complete op .rangeError s
  else if s.lat.len ≠ 8 then complete op .invalidBlockLength s
  else if s.status.keyv = false then complete op .keyNotLoaded s
  else complete op .success (writeOutput (f s.rk (memRead s s.lat.src.toNat 8)) s)

/-- ENCB (R120). -/
def execEncb (s : State) : Host.Outcome State Fault Refusal :=
  .next (runBlock (opField .encb) encryptBlock s)

/-- DECB (R121). -/
def execDecb (s : State) : Host.Outcome State Fault Refusal :=
  .next (runBlock (opField .decb) decryptBlock s)

end Sys2Proof.Machine
end

