-- ==== Sys2Proof/Machine/KeyCommands.lean ====
section
/-!
DEFINITION. NOP, KEYLD, IVLD and ZEROIZE (spec 41_key_iv_commands.md R110 to R113).
-/
namespace Sys2Proof.Machine

/-- NOP (R113). -/
def execNop (s : State) : Host.Outcome State Fault Refusal :=
  .next (complete (opField .nop) .success (setReslen 0 s))

/-- KEYLD (R110): range, then length, then parity adjustment and key schedule. -/
def execKeyld (s : State) : Host.Outcome State Fault Refusal :=
  .next <|
    if inRange s (inputRegion s.lat) = false then complete (opField .keyld) .rangeError (failKey s)
    else if s.lat.len ≠ 8 then complete (opField .keyld) .invalidKeyLength (failKey s)
    else complete (opField .keyld) .success (loadKey (be64 (parityAdjust (memRead s s.lat.src.toNat 8))) s)

/-- IVLD (R111): range, then length; no parity adjustment. -/
def execIvld (s : State) : Host.Outcome State Fault Refusal :=
  .next <|
    if inRange s (inputRegion s.lat) = false then complete (opField .ivld) .rangeError (failIv s)
    else if s.lat.len ≠ 8 then complete (opField .ivld) .invalidIvLength (failIv s)
    else complete (opField .ivld) .success (loadIv (be64 (memRead s s.lat.src.toNat 8)) s)

/-- ZEROIZE (R112). -/
def execZeroize (s : State) : Host.Outcome State Fault Refusal :=
  .next (complete (opField .zeroize) .success (zeroizeState s))

end Sys2Proof.Machine
end

