-- ==== Sys2Proof/Machine/Modes.lean ====
section
/-!
DEFINITION. The mode functions ECB and CFB on byte strings (spec 44_mode_commands.md R145, R146).
-/
namespace Sys2Proof.Machine

/-- EcbEncrypt (R145). -/
def ecbEncrypt (rk : Vector RoundKey 16) (d : Bytes) : Bytes :=
  (segments (padBytes d 8)).flatMap (encryptBlock rk)

/-- EcbDecrypt (R145): `none` is Fail; the length test comes before any block is decrypted (90_conflicts.md C3). -/
def ecbDecrypt (rk : Vector RoundKey 16) (c : Bytes) : Option Bytes :=
  if c.length = 0 ∨ c.length % 8 ≠ 0 then none
  else unpadBytes ((segments c).flatMap (decryptBlock rk)) 8

/-- The feedback after a ciphertext segment: the segment when it is a full block, else the old value, which nothing
reads (R146; 90_conflicts.md C5). -/
def nextFeedback (fb : Block) (c : Bytes) : Block := if c.length = 8 then be64 c else fb

/-- CfbEncrypt over the segments of a message (R146): the ciphertext and the feedback register after it. -/
def cfbEncryptSegs (rk : Vector RoundKey 16) : List Bytes → Block → Bytes × Block
  | [], fb => ([], fb)
  | p :: ps, fb =>
    let c := xorBytes p (encryptBlock rk (bytes8 fb))
    let rest := cfbEncryptSegs rk ps (nextFeedback fb c)
    (c ++ rest.1, rest.2)

/-- CfbDecrypt over the segments of a ciphertext (R146): the feedback is fed from the received ciphertext. -/
def cfbDecryptSegs (rk : Vector RoundKey 16) : List Bytes → Block → Bytes × Block
  | [], fb => ([], fb)
  | c :: cs, fb =>
    let p := xorBytes c (encryptBlock rk (bytes8 fb))
    let rest := cfbDecryptSegs rk cs (nextFeedback fb c)
    (p ++ rest.1, rest.2)

/-- CfbEncrypt(P, iv) (R146). -/
def cfbEncrypt (rk : Vector RoundKey 16) (p : Bytes) (iv : Block) : Bytes × Block :=
  cfbEncryptSegs rk (segments p) iv

/-- CfbDecrypt(C, iv) (R146). -/
def cfbDecrypt (rk : Vector RoundKey 16) (c : Bytes) (iv : Block) : Bytes × Block :=
  cfbDecryptSegs rk (segments c) iv

end Sys2Proof.Machine
end

