-- ==== Sys2Proof/Machine/ModeCommands.lean ====
section
/-!
DEFINITION. ECBENC, ECBDEC, CFBENC and CFBDEC (spec 44_mode_commands.md R140 to R144, R150, R151).
-/
namespace Sys2Proof.Machine

/-- ECBENC (R140): the range check uses the padded length. -/
def execEcbenc (s : State) : Host.Outcome State Fault Refusal :=
  .next <|
    if regionsOk s (inputRegion s.lat) (paddedRegion s.lat 8) = false then complete (opField .ecbenc) .rangeError s
    else if s.status.keyv = false then complete (opField .ecbenc) .keyNotLoaded s
    else complete (opField .ecbenc) .success (writeOutput (ecbEncrypt s.rk (inputBytes s)) s)

/-- ECBDEC (R141): no BUF byte is written on InvalidPadding. -/
def execEcbdec (s : State) : Host.Outcome State Fault Refusal :=
  .next <|
    if regionsOk s (inputRegion s.lat) (sameRegion s.lat) = false then complete (opField .ecbdec) .rangeError s
    else if s.status.keyv = false then complete (opField .ecbdec) .keyNotLoaded s
    else
      match ecbDecrypt s.rk (inputBytes s) with
      | none => complete (opField .ecbdec) .invalidPadding s
      | some out => complete (opField .ecbdec) .success (writeOutput out s)

/-- CFBENC (R142): the IV is the loaded one or a draw, even for an empty message (R150). -/
def execCfbenc (s : State) : Host.Outcome State Fault Refusal :=
  .next <|
    if regionsOk s (inputRegion s.lat) (sameRegion s.lat) = false then complete (opField .cfbenc) .rangeError s
    else if s.status.keyv = false then complete (opField .cfbenc) .keyNotLoaded s
    else
      let sel := selectIv s
      let r := cfbEncrypt s.rk (inputBytes s) sel.1
      complete (opField .cfbenc) .success (writeOutput r.1 (setFeedback r.2 sel.2))

/-- CFBDEC (R143): the IV must be loaded; it is read, not written. -/
def execCfbdec (s : State) : Host.Outcome State Fault Refusal :=
  .next <|
    if regionsOk s (inputRegion s.lat) (sameRegion s.lat) = false then complete (opField .cfbdec) .rangeError s
    else if s.status.keyv = false then complete (opField .cfbdec) .keyNotLoaded s
    else if s.status.ivv = false then complete (opField .cfbdec) .missingIv s
    else
      let r := cfbDecrypt s.rk (inputBytes s) s.iv
      complete (opField .cfbdec) .success (writeOutput r.1 (setFeedback r.2 s))

end Sys2Proof.Machine
end

