-- ==== Sys2Proof/Machine/PaddingCommands.lean ====
section
/-!
DEFINITION. PAD and UNPAD (spec 43_padding_commands.md R132, R133). A block size of 0 is no command: the word that would
carry it completes with IllegalCommand (30_encoding.md R64, R65), and so does the meaning here.
-/
namespace Sys2Proof.Machine

/-- PAD (R132). No scrub, no key. -/
def execPad (bs : BitVec 8) (s : State) : Host.Outcome State Fault Refusal :=
  .next <|
    if bs = 0 then complete (opField (.pad bs)) .illegalCommand s
    else if regionsOk s (inputRegion s.lat) (paddedRegion s.lat bs.toNat) = false then
      complete (opField (.pad bs)) .rangeError s
    else complete (opField (.pad bs)) .success (writeOutput (padBytes (inputBytes s) bs.toNat) s)

/-- UNPAD (R133). No scrub, no key; nothing is written on InvalidPadding. -/
def execUnpad (bs : BitVec 8) (s : State) : Host.Outcome State Fault Refusal :=
  .next <|
    if bs = 0 then complete (opField (.unpad bs)) .illegalCommand s
    else if regionsOk s (inputRegion s.lat) (sameRegion s.lat) = false then
      complete (opField (.unpad bs)) .rangeError s
    else
      match unpadBytes (inputBytes s) bs.toNat with
      | none => complete (opField (.unpad bs)) .invalidPadding s
      | some out => complete (opField (.unpad bs)) .success (writeOutput out s)

end Sys2Proof.Machine
end

