-- ==== Sys2Proof/Machine/Dispatch.lean ====
section
/-!
DEFINITION. The meaning of every command: one arm per constructor of Instr, each one direct call (spec 30_encoding.md R63).
-/
namespace Sys2Proof.Machine

def exec (i : Instr) (s : State) : Host.Outcome State Fault Refusal :=
  match i with
  | .nop => Sys2Proof.Machine.execNop s
  | .keyld => Sys2Proof.Machine.execKeyld s
  | .ivld => Sys2Proof.Machine.execIvld s
  | .encb => Sys2Proof.Machine.execEncb s
  | .decb => Sys2Proof.Machine.execDecb s
  | .ecbenc => Sys2Proof.Machine.execEcbenc s
  | .cfbenc => Sys2Proof.Machine.execCfbenc s
  | .ecbdec => Sys2Proof.Machine.execEcbdec s
  | .cfbdec => Sys2Proof.Machine.execCfbdec s
  | .pad bs => Sys2Proof.Machine.execPad bs s
  | .unpad bs => Sys2Proof.Machine.execUnpad bs s
  | .zeroize => Sys2Proof.Machine.execZeroize s

end Sys2Proof.Machine
end

