-- ==== Sys2Proof/Machine/Engine.lean ====
section
/-!
DEFINITION. The engine's own step: completion of the accepted command, which decodes the latched word and runs it (spec
60_exceptions.md R180; 30_encoding.md R64), the wait for the random source (10_state.md R16), and one event of the schedule
(60_exceptions.md R187).
-/
namespace Sys2Proof.Machine

/-- The completion of an illegal encoding (R65): ERRCODE, and the scrub when OP is 3 to 6. -/
def completeIllegal (s : State) : State := complete (wordOp s.lat.cmd) .illegalCommand s

/-- The completion of an unsupported mode (R65, R151). -/
def completeUnsupported (s : State) : State := complete (wordOp s.lat.cmd) .unsupportedMode s

/-- The one completion step of the accepted command (R180). -/
def completion (s : State) : Host.Outcome State Fault Refusal :=
  match decode s.lat.cmd with
  | .command i => exec i s
  | .illegal => .next (completeIllegal s)
  | .unsupported => .next (completeUnsupported s)

/-- The running command is a CFBENC that will draw its IV (R16, R142, R150): it can complete only when the random source
answers. -/
def awaitsDraw (s : State) : Bool :=
  decode s.lat.cmd == .command .cfbenc && regionsOk s (inputRegion s.lat) (sameRegion s.lat) && s.status.keyv &&
    !s.status.ivv

/-- The engine's turn: nothing in IDLE (R193); in BUSY the completion, but for a draw the source does not yet answer, which
leaves the command BUSY (R16). -/
def engineTurn (rngAnswers : Bool) (s : State) : Host.Outcome State Fault Refusal :=
  if s.status.busy = false then .next s
  else if rngAnswers = false ∧ awaitsDraw s = true then .next s
  else completion s

/-- One step: the oldest event of the schedule acts. With nothing scheduled a BUSY engine completes (R212) and an IDLE one
does nothing (R193). -/
def nextEvent (s : State) : Host.Outcome State Fault Refusal :=
  match s.sched with
  | [] => engineTurn true s
  | .host t :: rest => .next (transact t { s with sched := rest })
  | .engine rngAnswers :: rest => engineTurn rngAnswers { s with sched := rest }
  | .reset :: rest => .next (hardReset { s with sched := rest })

/-- The state in which command word `w` has just been accepted and the engine's turn comes next. -/
def placeCommand (w : Word) (s : State) : State :=
  let t := accept w s
  { t with sched := .engine true :: s.sched }

end Sys2Proof.Machine
end

