-- ==== Sys2Proof/Machine/Step.lean ====
section
/-!
DEFINITION. The step of the machine, and the placing of one command where the step takes it next (spec 10_state.md R10,
R15; 60_exceptions.md R180, R187).
-/
namespace Sys2Proof.Machine

/-- One step of the machine: the next event of the schedule. -/
def step (s : State) : Host.Outcome State Fault Refusal := nextEvent s

/-- The state in which the command with the given table word has been accepted and completes in the very next step. The
engine fetches nothing (R11, R56): this stands for the host's CMD write. -/
def State.withFetchWord (s : State) (nbits w : Nat) : State := placeCommand (tableWord nbits w) s

end Sys2Proof.Machine
end

