-- ==== Sys2Proof/Machine/HostProgram.lean ====
section
/-!
DEFINITION. The host program: its operations, its pseudo-operations, and its run interleaved with the engine (spec
30_encoding.md R66 to R70; 60_exceptions.md R187). This binds the host, not the engine: it drives the engine through host
transactions only.
-/
namespace Sys2Proof.Machine

/-- An operand of a host operation: a constant or one of the host's temporaries (R67). -/
inductive HostVal where
  | imm (v : Word)
  | tmp (t : Nat)
  deriving DecidableEq, Repr

/-- A host operation (R67); a label is the position of the operation it stands before. -/
inductive HostOp where
  | wr32 (off : BitVec 17) (v : HostVal)
  | rd32 (t : Nat) (off : BitVec 17)
  | wr8 (off : BitVec 17) (v : HostVal)
  | rd8 (t : Nat) (off : BitVec 17)
  | and (t u : Nat) (v : HostVal)
  | bz (t target : Nat)
  | bnz (t target : Nat)
  deriving DecidableEq, Repr

/-- The host: the position in its program and its temporaries, the newest value of each first. -/
structure HostCpu where
  pc : Nat
  temps : List (Nat × Word)
  deriving DecidableEq, Repr

/-- A 32-bit write transaction. -/
def wr32 (off : BitVec 17) (v : Word) (s : State) : State :=
  transact { offset := off, write := true, size := .s32, wdata := v } s

/-- The state after a 32-bit read transaction; the data is in its answer. -/
def rd32 (off : BitVec 17) (s : State) : State :=
  transact { offset := off, write := false, size := .s32, wdata := 0 } s

/-- An 8-bit write transaction. -/
def wr8 (off : BitVec 17) (v : Word) (s : State) : State :=
  transact { offset := off, write := true, size := .s8, wdata := v } s

/-- The state after an 8-bit read transaction. -/
def rd8 (off : BitVec 17) (s : State) : State :=
  transact { offset := off, write := false, size := .s8, wdata := 0 } s

/-- The value of a temporary. -/
def tempOf (h : HostCpu) (t : Nat) : Word := (h.temps.lookup t).getD 0

/-- The value of an operand. -/
def valOf (h : HostCpu) : HostVal → Word
  | .imm v => v
  | .tmp t => tempOf h t

/-- The host after an operation that writes no temporary. -/
def hostNext (h : HostCpu) : HostCpu := { h with pc := h.pc + 1 }

/-- The host after an operation that writes a temporary. -/
def setTemp (t : Nat) (v : Word) (h : HostCpu) : HostCpu := { pc := h.pc + 1, temps := (t, v) :: h.temps }

/-- One host operation (R67). -/
def hostOp (op : HostOp) (h : HostCpu) (s : State) : HostCpu × State :=
  match op with
  | .wr32 off v => (hostNext h, wr32 off (valOf h v) s)
  | .rd32 t off =>
    let s' := rd32 off s
    (setTemp t s'.resp.rdata h, s')
  | .wr8 off v => (hostNext h, wr8 off (valOf h v) s)
  | .rd8 t off =>
    let s' := rd8 off s
    (setTemp t s'.resp.rdata h, s')
  | .and t u v => (setTemp t (tempOf h u &&& valOf h v) h, s)
  | .bz t target => (if tempOf h t = 0 then { h with pc := target } else hostNext h, s)
  | .bnz t target => (if tempOf h t ≠ 0 then { h with pc := target } else hostNext h, s)

/-- One step of the host: its next operation, or nothing when its program has ended. -/
def hostStep (prog : List HostOp) (h : HostCpu) (s : State) : HostCpu × State :=
  match prog[h.pc]? with
  | some op => hostOp op h s
  | none => (h, s)

/-- What comes after an outcome that goes on. -/
def andThen (o : Host.Outcome α Fault Refusal) (f : α → Host.Outcome β Fault Refusal) : Host.Outcome β Fault Refusal :=
  match o with
  | .next a => f a
  | .fault e => .fault e
  | .refused e => .refused e

/-- A run of host and engine, one choice a step: true is a turn of the engine, false one of the host (R187). -/
def runHost (prog : List HostOp) : List Bool → HostCpu → State → Host.Outcome (HostCpu × State) Fault Refusal
  | [], h, s => .next (h, s)
  | true :: cs, h, s => andThen (engineTurn true s) (fun t => runHost prog cs h t)
  | false :: cs, h, s => runHost prog cs (hostStep prog h s).1 (hostStep prog h s).2

/-- `issue` (R68): SRC, DST and LEN are written only where the command uses them, then CMD. -/
def issueOps (i : Instr) (src dst len : Word) : List HostOp :=
  (if Operand.src ∈ operandsOf i then [.wr32 (regOffset .src) (.imm src)] else []) ++
  (if Operand.dst ∈ operandsOf i then [.wr32 (regOffset .dst) (.imm dst)] else []) ++
  (if Operand.len ∈ operandsOf i then [.wr32 (regOffset .len) (.imm len)] else []) ++
  [.wr32 (regOffset .cmd) (.imm (encode i))]

/-- `wait` (R68), standing at position `at0` of the program and using temporary `t`. -/
def waitOps (at0 t : Nat) : List HostOp :=
  [.rd32 t (regOffset .status), .and t t (.imm 1), .bnz t at0]

/-- `ack` (R68): clears DONE. -/
def ackOps : List HostOp := [.wr32 (regOffset .status) (.imm 2)]

/-- The host offset of a buffer address (R40). -/
def bufOffset (a : Nat) : BitVec 17 := BitVec.ofNat 17 (0x10000 + a)

/-- `loadbytes` (R68), byte by byte. -/
def loadOps : Nat → Bytes → List HostOp
  | _, [] => []
  | a, b :: bs => .wr8 (bufOffset a) (.imm (b.zeroExtend 32)) :: loadOps (a + 1) bs

/-- The state after a list of host operations without branches, run to its end with no turn of the engine between. -/
def runOps (ops : List HostOp) (s : State) : State :=
  ops.foldl (fun t op => (hostOp op { pc := 0, temps := [] } t).2) s

end Sys2Proof.Machine
end

