-- ==== Sys2Proof/Machine/Text.lean ====
section
/-!
DEFINITION. The host adapter's text primitives: UTF-8, hexadecimal, trimming and the text step of key and IV normalization
(spec 48_host_adapter.md R160 to R163, R168).
-/
namespace Sys2Proof.Machine

/-- A text is a sequence of Unicode scalar values (R160). -/
abbrev Text := List Char

/-- The UTF-8 bytes of one scalar value (R160). -/
def utf8Char (c : Char) : Bytes :=
  let n := c.toNat
  if n < 0x80 then [BitVec.ofNat 8 n]
  else if n < 0x800 then [BitVec.ofNat 8 (0xC0 + n / 64), BitVec.ofNat 8 (0x80 + n % 64)]
  else if n < 0x10000 then
    [BitVec.ofNat 8 (0xE0 + n / 4096), BitVec.ofNat 8 (0x80 + n / 64 % 64), BitVec.ofNat 8 (0x80 + n % 64)]
  else
    [BitVec.ofNat 8 (0xF0 + n / 262144), BitVec.ofNat 8 (0x80 + n / 4096 % 64),
     BitVec.ofNat 8 (0x80 + n / 64 % 64), BitVec.ofNat 8 (0x80 + n % 64)]

/-- utf8_encode (R160). -/
def utf8Encode (t : Text) : Bytes := t.flatMap utf8Char

/-- The scalar value with a number, if the number is one: surrogates and values above U+10FFFF are not (R160). -/
def scalarOf (n : Nat) : Option Char := if n.isValidChar then some (Char.ofNat n) else none

/-- Decoding with `need` continuation bytes still to come of a character whose bits so far are `acc` and whose value must
be at least `low`, which an overlong form is not (R160). -/
def utf8Go : Bytes → Nat → Nat → Nat → Option Text
  | [], 0, _, _ => some []
  | [], _ + 1, _, _ => none
  | b :: bs, 0, _, _ =>
    let n := b.toNat
    if n < 0x80 then (utf8Go bs 0 0 0).map (fun t => Char.ofNat n :: t)
    else if n < 0xC0 then none
    else if n < 0xE0 then utf8Go bs 1 (n - 0xC0) 0x80
    else if n < 0xF0 then utf8Go bs 2 (n - 0xE0) 0x800
    else if n < 0xF8 then utf8Go bs 3 (n - 0xF0) 0x10000
    else none
  | b :: bs, need + 1, acc, low =>
    let n := b.toNat
    if n < 0x80 ∨ 0xC0 ≤ n then none
    else
      let v := acc * 64 + (n - 0x80)
      if need = 0 then
        if v < low then none
        else (scalarOf v).bind (fun c => (utf8Go bs 0 0 0).map (fun t => c :: t))
      else utf8Go bs need v low

/-- utf8_decode (R160): `none` is Fail. -/
def utf8Decode (b : Bytes) : Option Text := utf8Go b 0 0 0

/-- The value of a hex digit, upper and lower case equal (R162). -/
def hexValue (c : Char) : Option Nat :=
  let n := c.toNat
  if 48 ≤ n ∧ n ≤ 57 then some (n - 48)
  else if 97 ≤ n ∧ n ≤ 102 then some (n - 87)
  else if 65 ≤ n ∧ n ≤ 70 then some (n - 55)
  else none

/-- hexdecode (R162): `none` for an odd length or any character that is not a hex digit. -/
def hexDecode : Text → Option Bytes
  | [] => some []
  | [_] => none
  | a :: b :: rest =>
    match hexValue a, hexValue b with
    | some h, some l => (hexDecode rest).map (fun bs => BitVec.ofNat 8 (16 * h + l) :: bs)
    | _, _ => none

/-- A lowercase hex digit (R162). -/
def hexDigit (n : Nat) : Char := if n < 10 then Char.ofNat (48 + n) else Char.ofNat (87 + n)

/-- hexencode (R162): two lowercase digits per byte, high nibble first. -/
def hexEncode (bs : Bytes) : Text :=
  bs.flatMap (fun b => [hexDigit (b.toNat / 16), hexDigit (b.toNat % 16)])

/-- A character that trimming removes (R163). -/
def isTrimmed (c : Char) : Bool :=
  c.toNat == 0x09 || c.toNat == 0x0A || c.toNat == 0x0B || c.toNat == 0x0C || c.toNat == 0x0D || c.toNat == 0x20

/-- trim (R163): leading and trailing characters of the set, no others. -/
def trimText (t : Text) : Text := ((t.dropWhile isTrimmed).reverse.dropWhile isTrimmed).reverse

/-- NormalizeText (R161); `rawTrimmed` is the OPEN parameter RAW_PATH_TRIMMED (R6). -/
def normalizeText (rawTrimmed : Bool) (s : Text) : Bytes :=
  let t := trimText s
  let raw := utf8Encode (if rawTrimmed then t else s)
  if t.length = 16 then (hexDecode t).getD raw else raw

/-- The two modes of the boundary functions (R168). -/
inductive TextMode where
  | ecb
  | cfb
  deriving DecidableEq, Repr

/-- The mode selector: exactly `ecb` or exactly `cfb` (R168). -/
def modeOfText (t : Text) : Option TextMode :=
  if t = ['e', 'c', 'b'] then some .ecb
  else if t = ['c', 'f', 'b'] then some .cfb
  else none

end Sys2Proof.Machine
end

