-- ==== Sys2Proof/Machine/Adapter.lean ====
section
/-!
DEFINITION. The host adapter: the source's two boundary functions on text, computed with the engine's commands (spec
48_host_adapter.md R164 to R168). It binds the host, not the engine: everything it does to the engine is a host transaction
or the engine's own completion.
-/
namespace Sys2Proof.Machine

/-- What a boundary function returns: its result or exactly one error (R166). -/
inductive Reply (α : Type) where
  | ok (a : α)
  | err (e : ErrCode)
  deriving DecidableEq, Repr

/-- Writes bytes to BUF from address `a`, byte by byte (R68). -/
def loadBuf (a : Nat) (bs : Bytes) (s : State) : State := runOps (loadOps a bs) s

/-- Reads `n` bytes of BUF from address `a` through the bus: the bytes and the state after. -/
def fetchBuf : Nat → Nat → State → Bytes × State
  | _, 0, s => ([], s)
  | a, n + 1, s =>
    let t := rd8 (bufOffset a) s
    let r := fetchBuf (a + 1) n t
    (t.resp.rdata.extractLsb' 0 8 :: r.1, r.2)

/-- "issue X; wait", then `rd32 t, STATUS` and ERRCODE = t[11:8] (R68, 48_host_adapter.md section 2). The wait lets the
engine complete (R212); a reserved code read back is refused (93_implementation_defined.md I15). -/
def runCommand (i : Instr) (src dst len : Nat) (s : State) : Host.Outcome (State × ErrCode) Fault Refusal :=
  andThen (engineTurn true (runOps (issueOps i (BitVec.ofNat 32 src) (BitVec.ofNat 32 dst) (BitVec.ofNat 32 len)) s))
    (fun t =>
      let u := rd32 (regOffset .status) t
      match codeOfBits (u.resp.rdata.extractLsb' 8 4) with
      | some e => .next (u, e)
      | none => .refused .reservedErrCode)

/-- "fail with e" after a KEYLD has succeeded and no cipher command has run since: ZEROIZE first (R164). -/
def failWith (e : ErrCode) (s : State) : Host.Outcome (State × Reply α) Fault Refusal :=
  andThen (runCommand .zeroize 0 0 0 s) (fun r => .next (r.1, .err e))

/-- Step 3 of R164: the key is normalized, placed and loaded; then `k` goes on. -/
def withKey (rawTrimmed : Bool) (key : Text) (s : State)
    (k : State → Host.Outcome (State × Reply α) Fault Refusal) : Host.Outcome (State × Reply α) Fault Refusal :=
  let kb := normalizeText rawTrimmed key
  if s.bufBytes < kb.length then .next (s, .err .invalidKeyLength)
  else
    andThen (runCommand .keyld 0 0 kb.length (loadBuf 0 kb s)) (fun r =>
      if r.2 = .success then k r.1 else .next (r.1, .err r.2))

/-- Step 4 of R164: in CFB an IV that is present is normalized, placed and loaded; in ECB it is ignored; then `k` goes
on. -/
def withIv (rawTrimmed : Bool) (mode : TextMode) (iv : Option Text) (s : State)
    (k : State → Host.Outcome (State × Reply α) Fault Refusal) : Host.Outcome (State × Reply α) Fault Refusal :=
  match mode, iv with
  | .cfb, some v =>
    let ib := normalizeText rawTrimmed v
    if s.bufBytes < ib.length then failWith .invalidIvLength s
    else
      andThen (runCommand .ivld 0 0 ib.length (loadBuf 0 ib s)) (fun r =>
        if r.2 = .success then k r.1 else failWith r.2 r.1)
  | .cfb, none => k s
  | .ecb, _ => k s

/-- Steps 6 and 7 of R164 and R165: the message is placed at 0, the command runs in place, and RESLEN bytes are read
back. -/
def runMessage (i : Instr) (m : Bytes) (s : State)
    (k : Bytes → State → Host.Outcome (State × Reply α) Fault Refusal) : Host.Outcome (State × Reply α) Fault Refusal :=
  andThen (runCommand i 0 0 m.length (loadBuf 0 m s)) (fun r =>
    if r.2 = .success then
      let t := rd32 (regOffset .reslen) r.1
      let c := fetchBuf 0 t.resp.rdata.toNat t
      k c.1 c.2
    else .next (r.1, .err r.2))

/-- encrypt (R164). -/
def encryptText (rawTrimmed : Bool) (plaintext key mode : Text) (iv : Option Text) (s : State) :
    Host.Outcome (State × Reply (Text × Option Text)) Fault Refusal :=
  match modeOfText mode with
  | none => .next (s, .err .unsupportedMode)
  | some md =>
    let p := utf8Encode plaintext
    withKey rawTrimmed key s (fun s1 =>
      withIv rawTrimmed md iv s1 (fun s2 =>
        let m := match md with
          | .ecb => p.length + (8 - p.length % 8)
          | .cfb => p.length
        if s2.bufBytes < m then failWith .messageTooLong s2
        else
          match md with
          | .ecb => runMessage .ecbenc p s2 (fun c t => .next (t, .ok (hexEncode c, none)))
          | .cfb =>
            runMessage .cfbenc p s2 (fun c t =>
              let hi := rd32 (regOffset .ivHi) t
              let lo := rd32 (regOffset .ivLo) hi
              .next (lo, .ok (hexEncode c, some (hexEncode (bytes4 hi.resp.rdata ++ bytes4 lo.resp.rdata)))))))

/-- decrypt (R165). -/
def decryptText (rawTrimmed : Bool) (ciphertextHex key mode : Text) (iv : Option Text) (s : State) :
    Host.Outcome (State × Reply Text) Fault Refusal :=
  match modeOfText mode with
  | none => .next (s, .err .unsupportedMode)
  | some md =>
    withKey rawTrimmed key s (fun s1 =>
      withIv rawTrimmed md iv s1 (fun s2 =>
        match hexDecode ciphertextHex with
        | none => failWith .invalidCiphertextEncoding s2
        | some c =>
          if s2.bufBytes < c.length then failWith .messageTooLong s2
          else
            let cmd := match md with
              | .ecb => Instr.ecbdec
              | .cfb => Instr.cfbdec
            runMessage cmd c s2 (fun r t =>
              match utf8Decode r with
              | none => .next (t, .err .invalidUtf8)
              | some x => .next (t, .ok x))))

end Sys2Proof.Machine
end

