-- ==== Sys2Proof/Safety.lean ====
section
/-!
DEFINITION. What claims about the engine use: the invariant of its state, the conditions of the spec's rules in plain
arithmetic, and the state a command leaves beside its output (spec 10_state.md R23 to R28, R30; 20_memory.md R45, R46, R51;
30_encoding.md R65; 44_mode_commands.md R145, R146; 60_exceptions.md R180, R182).
-/
namespace Sys2Proof.Machine

/-- The invariant of the engine: what every reachable state has, whatever the schedule. -/
structure State.Inv (s : State) : Prop where
  /-- BUF's listed addresses rise strictly: the canonical form. -/
  bufSorted : Memory.wf s.buf
  /-- Only addresses below BUF_BYTES are listed (R40). -/
  bufInRange : ∀ c ∈ s.buf, c.1 < s.bufBytes
  /-- No value of FB survives a command (R25). -/
  fbZero : s.fb = 0
  /-- Without a loaded key there is no key material (R23, R24, R27). -/
  keyAbsent : s.status.keyv = false → s.k = 0 ∧ s.rk = zeroKeys
  /-- A loaded key has odd parity, and RK holds its round keys (R14, R24, R114). -/
  keyPresent : s.status.keyv = true → s.rk = keySchedule s.k ∧ parityAdjust (bytes8 s.k) = bytes8 s.k
  /-- CMD_LAST equals LAT.CMD (R28). -/
  latched : s.cmdLast = s.lat.cmd
  /-- What the host sees between accept and completion (R51). -/
  busyClear : s.status.busy = true →
    s.status.done = false ∧ s.status.errcode = .success ∧ s.status.ivgen = false ∧ s.reslen = 0
  /-- Only the engine's codes are in ERRCODE (R182). -/
  engineCode : isEngineCode s.status.errcode = true
  /-- After an error there is no output and no drawn IV (R184). -/
  errNoOutput : s.status.errcode ≠ .success → s.reslen = 0 ∧ s.status.ivgen = false
  /-- RESLEN counts bytes of BUF (R20). -/
  reslenBound : s.reslen.toNat ≤ s.bufBytes
  /-- IVGEN belongs to a CFBENC that succeeded (R14). -/
  ivgenCmd : s.status.ivgen = true → s.lat.cmd = encode .cfbenc ∧ s.status.errcode = .success

/-- Regions (a, n) and (d, m) are in range and compatible (R45, R46). -/
abbrev RegionsFit (s : State) (a n d m : Nat) : Prop :=
  a + n ≤ s.bufBytes ∧ d + m ≤ s.bufBytes ∧ (a = d ∨ n = 0 ∨ m = 0 ∨ a + n ≤ d ∨ d + m ≤ a)

/-- The illegal encodings as R65 lists them. -/
abbrev IllegalWord (w : Word) : Prop :=
  w.extractLsb' 6 2 ≠ 0 ∨ w.extractLsb' 16 16 ≠ 0 ∨ 0xA ≤ (w.extractLsb' 0 4).toNat ∨
  ((w.extractLsb' 0 4 ≠ 7 ∧ w.extractLsb' 0 4 ≠ 8) ∧ w.extractLsb' 8 8 ≠ 0) ∨
  ((w.extractLsb' 0 4 = 7 ∨ w.extractLsb' 0 4 = 8) ∧ w.extractLsb' 8 8 = 0) ∨
  ((w.extractLsb' 0 4 ≠ 5 ∧ w.extractLsb' 0 4 ≠ 6) ∧ w.extractLsb' 4 2 ≠ 0)

/-- The unsupported encodings as R65 lists them. -/
abbrev UnsupportedWord (w : Word) : Prop :=
  (w.extractLsb' 0 4 = 5 ∨ w.extractLsb' 0 4 = 6) ∧ (w.extractLsb' 4 2 = 2 ∨ w.extractLsb' 4 2 = 3) ∧
  w.extractLsb' 6 2 = 0 ∧ w.extractLsb' 16 16 = 0 ∧ w.extractLsb' 8 8 = 0

/-- The word's OP is that of a cipher command (R27). -/
abbrev CipherWord (w : Word) : Prop :=
  w.extractLsb' 0 4 = 3 ∨ w.extractLsb' 0 4 = 4 ∨ w.extractLsb' 0 4 = 5 ∨ w.extractLsb' 0 4 = 6

/-- What completion with a code leaves of `s` after a command that does not scrub (R180). -/
def endPlain (code : ErrCode) (s : State) : State :=
  { s with status := { s.status with errcode := code, busy := false, done := true } }

/-- What completion with a code leaves of `s` after a cipher command: the scrub too (R27, R180). -/
def endCipher (code : ErrCode) (s : State) : State :=
  { s with
    k := 0, rk := zeroKeys, fb := 0
    status := { s.status with errcode := code, keyv := false, ivv := false, busy := false, done := true } }

/-- `t` holds the bytes `out` at `d`, and every other byte of BUF reads as in `s`. -/
def WroteOutput (s t : State) (d : Nat) (out : Bytes) : Prop :=
  memRead t d out.length = out ∧ ∀ a, a < d ∨ d + out.length ≤ a → byteAt t a = byteAt s a

/-- Block j of a byte string: its bytes from 8j on, at most 8 (R145, R146). -/
def blockOf (m : Bytes) (j : Nat) : Bytes := (m.drop (8 * j)).take 8

/-- The block that CFB encrypts for segment j of a message with ciphertext `c`: the IV first, then the previous ciphertext
block (R146). -/
def feedbackBlock (iv : Block) (c : Bytes) (j : Nat) : Bytes := if j = 0 then bytes8 iv else blockOf c (j - 1)

/-- What a single-block command does (R120, R121), its checks in order: regions, length, key, then the block function on the
input block, every outcome with the scrub. -/
def BlockRule (i : Instr) (f : Vector RoundKey 16 → Bytes → Bytes) (s : State) : Prop :=
  let a := s.lat.src.toNat
  let d := s.lat.dst.toNat
  let n := s.lat.len.toNat
  (¬ RegionsFit s a n d n → exec i s = .next (endCipher .rangeError s)) ∧
  (RegionsFit s a n d n → n ≠ 8 → exec i s = .next (endCipher .invalidBlockLength s)) ∧
  (RegionsFit s a n d n → n = 8 → s.status.keyv = false → exec i s = .next (endCipher .keyNotLoaded s)) ∧
  (RegionsFit s a n d n → n = 8 → s.status.keyv = true →
    ∃ t, exec i s = .next t ∧ (f s.rk (memRead s a 8)).length = 8 ∧ WroteOutput s t d (f s.rk (memRead s a 8)) ∧
      t = { endCipher .success s with buf := t.buf, reslen := 8 })

/-- The transaction that writes the 32-bit `v` at host offset `off` (R41). -/
def write32 (off : BitVec 17) (v : Word) : Tx := { offset := off, write := true, size := .s32, wdata := v }

/-- The transaction that reads 32 bits at host offset `off` (R41). -/
def read32 (off : BitVec 17) : Tx := { offset := off, write := false, size := .s32, wdata := 0 }

/-- The transaction that writes the 8-bit `v` at host offset `off` (R41). -/
def write8 (off : BitVec 17) (v : Word) : Tx := { offset := off, write := true, size := .s8, wdata := v }

/-- The transaction that reads 8 bits at host offset `off` (R41). -/
def read8 (off : BitVec 17) : Tx := { offset := off, write := false, size := .s8, wdata := 0 }

/-- A transaction is a bus error as R42 and R43 say. -/
abbrev IsBusError (t : Tx) (s : State) : Prop :=
  (t.offset.toNat < 0x10000 ∧ (t.size ≠ .s32 ∨ t.offset.toNat % 4 ≠ 0)) ∨
  (0x10000 ≤ t.offset.toNat ∧
    (s.status.busy = true ∨ t.size = .s16 ∨ (t.size = .s32 ∧ t.offset.toNat % 4 ≠ 0)))

end Sys2Proof.Machine
end

