-- ==== Sys2Proof/Certificates/Slice0/Obligations.lean ====
section
/-!
DEFINITION. The statements for the provers. Each docstring names the rules of spec/ it formalises; OBLIGATIONS.json lists
them.
-/
open Sys2Proof Sys2Proof.Machine

/-! ## Encoding (30_encoding.md) -/

/-- R63, R64: the word of every well-formed command decodes to that command, every block size included. -/
def Obligations.DecodeInvertsEncode : Prop :=
  ∀ i : Instr, i.wf = true → decode (encode i) = .command i

/-- R63, R64, R65: a word that decodes to a command is the word of that well-formed command and of no other. -/
def Obligations.DecodeAcceptsOnlyEncodings : Prop :=
  ∀ (w : Word) (i : Instr), decode w = .command i → i.wf = true ∧ encode i = w

/-- R63: the full words of the opcode map, the reserved OPs, and the operands each command uses. -/
def Obligations.OpcodeMapWords : Prop :=
  (decode 0x00000000 = .command .nop ∧ decode 0x00000001 = .command .keyld ∧ decode 0x00000002 = .command .ivld ∧
    decode 0x00000003 = .command .encb ∧ decode 0x00000004 = .command .decb ∧ decode 0x00000005 = .command .ecbenc ∧
    decode 0x00000015 = .command .cfbenc ∧ decode 0x00000006 = .command .ecbdec ∧
    decode 0x00000016 = .command .cfbdec ∧ decode 0x00000009 = .command .zeroize ∧
    decode 0x00000807 = .command (.pad 8) ∧ decode 0x00000808 = .command (.unpad 8)) ∧
  (∀ b : BitVec 8, b ≠ 0 →
    decode (0x00000007 ||| (b.zeroExtend 32 <<< 8)) = .command (.pad b) ∧
    decode (0x00000008 ||| (b.zeroExtend 32 <<< 8)) = .command (.unpad b)) ∧
  (∀ w : Word, 0xA ≤ (w.extractLsb' 0 4).toNat → decode w = .illegal) ∧
  (operandsOf .nop = [] ∧ operandsOf .zeroize = [] ∧ operandsOf .keyld = [.src, .len] ∧
    operandsOf .ivld = [.src, .len] ∧
    (∀ i ∈ [Instr.encb, .decb, .ecbenc, .cfbenc, .ecbdec, .cfbdec], operandsOf i = [.src, .dst, .len]) ∧
    ∀ b, operandsOf (.pad b) = [.src, .dst, .len, .bs] ∧ operandsOf (.unpad b) = [.src, .dst, .len, .bs])

/-- R65: every illegal word completes with IllegalCommand and nothing else but the scrub for OP 3 to 6; every unsupported
word completes with UnsupportedMode and the scrub; every other word is the word of one command. -/
def Obligations.ErrorEncodingsComplete : Prop :=
  ∀ s : State, s.status.busy = true → s.sched = [] →
    (IllegalWord s.lat.cmd → step s = .next
      (if CipherWord s.lat.cmd then endCipher .illegalCommand s else endPlain .illegalCommand s)) ∧
    (UnsupportedWord s.lat.cmd → step s = .next (endCipher .unsupportedMode s)) ∧
    (¬ IllegalWord s.lat.cmd → ¬ UnsupportedWord s.lat.cmd →
      ∃ i : Instr, i.wf = true ∧ encode i = s.lat.cmd ∧ step s = exec i s)

/-! ## The step (60_exceptions.md) -/

/-- R64, R180: at the engine's turn a BUSY engine runs exec of the command its latched word decodes to; the event is taken
off the schedule and nothing else is added. -/
def Obligations.StepRunsDecodedCommand : Prop :=
  ∀ (s : State) (i : Instr), s.status.busy = true → decode s.lat.cmd = .command i →
    (s.sched = [] → step s = exec i s) ∧
    (∀ b rest, s.sched = .engine b :: rest → (b = true ∨ awaitsDraw s = false) →
      step s = exec i { s with sched := rest })

/-- R16: a CFBENC that must draw stays BUSY and unchanged while the random source does not answer, and completes when it
answers. -/
def Obligations.DrawWaitsForTheSource : Prop :=
  ∀ (s : State) (rest : List Event), s.status.busy = true → s.lat.cmd = 0x00000015 →
    RegionsFit s s.lat.src.toNat s.lat.len.toNat s.lat.dst.toNat s.lat.len.toNat →
    s.status.keyv = true → s.status.ivv = false →
    (s.sched = .engine false :: rest → step s = .next { s with sched := rest }) ∧
    (s.sched = .engine true :: rest →
      ∃ t, step s = .next t ∧ t.status.busy = false ∧ t.status.done = true ∧ t.status.ivgen = true)

/-- R16, R150: a draw is taken only by a CFBENC with IVV = 0, once, and its value goes to IV with IVGEN. -/
def Obligations.OnlyCfbencDraws : Prop :=
  ∀ (i : Instr) (s t : State), exec i s = .next t →
    t.draws = s.draws ∨
    (i = .cfbenc ∧ s.status.ivv = false ∧ t.draws = s.draws + 1 ∧ t.iv = Config.rngDraw s.draws ∧
      t.status.ivgen = true)

/-- R193: in IDLE the engine does nothing, and all state is retained. -/
def Obligations.IdleEngineDoesNothing : Prop :=
  ∀ s : State, s.status.busy = false →
    (s.sched = [] → step s = .next s) ∧
    (∀ b rest, s.sched = .engine b :: rest → step s = .next { s with sched := rest })

/-- R181: no error stops the engine: every step from every state answers a next state, and so does every command. -/
def Obligations.EveryStepAnswers : Prop :=
  (∀ s : State, ∃ t, step s = .next t) ∧ (∀ (i : Instr) (s : State), ∃ t, exec i s = .next t)

/-- R180, R182: an accepted command ends with one completion step, which leaves IDLE with DONE and one of the engine's
codes; the errors the adapter alone reports never appear. -/
def Obligations.CompletionEndsTheCommand : Prop :=
  ∀ s : State, s.status.busy = true → s.sched = [] →
    ∃ t, step s = .next t ∧ t.status.busy = false ∧ t.status.done = true ∧
      t.status.errcode ∈ [ErrCode.success, .invalidKeyLength, .invalidIvLength, .unsupportedMode, .invalidPadding,
        .missingIv, .illegalCommand, .rangeError, .keyNotLoaded, .invalidBlockLength]

/-- R6, R187: a step never changes the buffer size, and takes at most the oldest event off the schedule. -/
def Obligations.StepKeepsSizeAndSchedule : Prop :=
  ∀ s t : State, step s = .next t → t.bufExp = s.bufExp ∧ t.sched = s.sched.tail

/-! ## The commands (41 to 44) -/

/-- R113: NOP is the common completion alone, from every state. -/
def Obligations.NopOnlyCompletes : Prop :=
  encode .nop = 0x00000000 ∧
  ∀ s : State, exec .nop s = .next { endPlain .success s with reslen := 0 }

/-- R110: KEYLD, its two errors and its success. -/
def Obligations.KeyldLoadsTheKey : Prop :=
  encode .keyld = 0x00000001 ∧
  ∀ s : State,
    (s.bufBytes < s.lat.src.toNat + s.lat.len.toNat →
      exec .keyld s = .next
        { endPlain .rangeError s with
          k := 0, rk := zeroKeys, status := { (endPlain .rangeError s).status with keyv := false } }) ∧
    (s.lat.src.toNat + s.lat.len.toNat ≤ s.bufBytes → s.lat.len.toNat ≠ 8 →
      exec .keyld s = .next
        { endPlain .invalidKeyLength s with
          k := 0, rk := zeroKeys, status := { (endPlain .invalidKeyLength s).status with keyv := false } }) ∧
    (s.lat.src.toNat + s.lat.len.toNat ≤ s.bufBytes → s.lat.len.toNat = 8 →
      exec .keyld s = .next
        { endPlain .success s with
          k := be64 (parityAdjust (memRead s s.lat.src.toNat 8))
          rk := keySchedule (be64 (parityAdjust (memRead s s.lat.src.toNat 8)))
          reslen := 0
          status := { (endPlain .success s).status with keyv := true } })

/-- R111: IVLD, its two errors and its success. -/
def Obligations.IvldLoadsTheIv : Prop :=
  encode .ivld = 0x00000002 ∧
  ∀ s : State,
    (s.bufBytes < s.lat.src.toNat + s.lat.len.toNat →
      exec .ivld s = .next
        { endPlain .rangeError s with status := { (endPlain .rangeError s).status with ivv := false } }) ∧
    (s.lat.src.toNat + s.lat.len.toNat ≤ s.bufBytes → s.lat.len.toNat ≠ 8 →
      exec .ivld s = .next
        { endPlain .invalidIvLength s with
          status := { (endPlain .invalidIvLength s).status with ivv := false } }) ∧
    (s.lat.src.toNat + s.lat.len.toNat ≤ s.bufBytes → s.lat.len.toNat = 8 →
      exec .ivld s = .next
        { endPlain .success s with
          iv := be64 (memRead s s.lat.src.toNat 8)
          reslen := 0
          status := { (endPlain .success s).status with ivv := true } })

/-- R112: ZEROIZE clears all key and IV state and nothing else, from every state. -/
def Obligations.ZeroizeClearsKeyState : Prop :=
  encode .zeroize = 0x00000009 ∧
  ∀ s : State, exec .zeroize s = .next
    { endPlain .success s with
      k := 0, rk := zeroKeys, fb := 0, iv := 0, reslen := 0
      status := { (endPlain .success s).status with keyv := false, ivv := false } }

/-- R120: ENCB. -/
def Obligations.EncbEncryptsOneBlock : Prop :=
  encode .encb = 0x00000003 ∧ ∀ s : State, BlockRule .encb encryptBlock s

/-- R121: DECB. -/
def Obligations.DecbDecryptsOneBlock : Prop :=
  encode .decb = 0x00000004 ∧ ∀ s : State, BlockRule .decb decryptBlock s

/-- R132: PAD, at every block size from 1 to 255. The clause for block size 0, which no word decodes to (R64), is the
model's choice (log entry 11). -/
def Obligations.PadAppendsPadding : Prop :=
  ∀ (bs : BitVec 8) (s : State),
    let a := s.lat.src.toNat
    let d := s.lat.dst.toNat
    let n := s.lat.len.toNat
    let m := n + (bs.toNat - n % bs.toNat)
    encode (.pad bs) = 0x00000007 ||| (bs.zeroExtend 32 <<< 8) ∧
    (bs = 0 → exec (.pad bs) s = .next (endPlain .illegalCommand s)) ∧
    (bs ≠ 0 → ¬ RegionsFit s a n d m → exec (.pad bs) s = .next (endPlain .rangeError s)) ∧
    (bs ≠ 0 → RegionsFit s a n d m →
      ∃ t, exec (.pad bs) s = .next t ∧ (padBytes (memRead s a n) bs.toNat).length = m ∧
        WroteOutput s t d (padBytes (memRead s a n) bs.toNat) ∧
        t = { endPlain .success s with buf := t.buf, reslen := BitVec.ofNat 32 m } ∧ t.reslen.toNat = m)

/-- R133: UNPAD, at every block size from 1 to 255. The clause for block size 0, which no word decodes to (R64), is the
model's choice (log entry 11). -/
def Obligations.UnpadRemovesPadding : Prop :=
  ∀ (bs : BitVec 8) (s : State),
    let a := s.lat.src.toNat
    let d := s.lat.dst.toNat
    let n := s.lat.len.toNat
    encode (.unpad bs) = 0x00000008 ||| (bs.zeroExtend 32 <<< 8) ∧
    (bs = 0 → exec (.unpad bs) s = .next (endPlain .illegalCommand s)) ∧
    (bs ≠ 0 → ¬ RegionsFit s a n d n → exec (.unpad bs) s = .next (endPlain .rangeError s)) ∧
    (bs ≠ 0 → RegionsFit s a n d n → unpadBytes (memRead s a n) bs.toNat = none →
      exec (.unpad bs) s = .next (endPlain .invalidPadding s)) ∧
    (∀ out, bs ≠ 0 → RegionsFit s a n d n → unpadBytes (memRead s a n) bs.toNat = some out →
      ∃ t, exec (.unpad bs) s = .next t ∧ WroteOutput s t d out ∧
        t = { endPlain .success s with buf := t.buf, reslen := BitVec.ofNat 32 out.length } ∧
        t.reslen.toNat = out.length)

/-- R140: ECBENC; the output is the padded length and the IV plays no part (R144). -/
def Obligations.EcbencEncryptsTheMessage : Prop :=
  encode .ecbenc = 0x00000005 ∧
  ∀ s : State,
    let a := s.lat.src.toNat
    let d := s.lat.dst.toNat
    let n := s.lat.len.toNat
    let m := n + (8 - n % 8)
    (¬ RegionsFit s a n d m → exec .ecbenc s = .next (endCipher .rangeError s)) ∧
    (RegionsFit s a n d m → s.status.keyv = false → exec .ecbenc s = .next (endCipher .keyNotLoaded s)) ∧
    (RegionsFit s a n d m → s.status.keyv = true →
      ∃ t, exec .ecbenc s = .next t ∧ (ecbEncrypt s.rk (memRead s a n)).length = m ∧
        WroteOutput s t d (ecbEncrypt s.rk (memRead s a n)) ∧
        t = { endCipher .success s with buf := t.buf, reslen := BitVec.ofNat 32 m } ∧ t.reslen.toNat = m)

/-- R141: ECBDEC; nothing is written when the padding is bad. -/
def Obligations.EcbdecDecryptsTheMessage : Prop :=
  encode .ecbdec = 0x00000006 ∧
  ∀ s : State,
    let a := s.lat.src.toNat
    let d := s.lat.dst.toNat
    let n := s.lat.len.toNat
    (¬ RegionsFit s a n d n → exec .ecbdec s = .next (endCipher .rangeError s)) ∧
    (RegionsFit s a n d n → s.status.keyv = false → exec .ecbdec s = .next (endCipher .keyNotLoaded s)) ∧
    (RegionsFit s a n d n → s.status.keyv = true → ecbDecrypt s.rk (memRead s a n) = none →
      exec .ecbdec s = .next (endCipher .invalidPadding s)) ∧
    (∀ out, RegionsFit s a n d n → s.status.keyv = true → ecbDecrypt s.rk (memRead s a n) = some out →
      ∃ t, exec .ecbdec s = .next t ∧ WroteOutput s t d out ∧
        t = { endCipher .success s with buf := t.buf, reslen := BitVec.ofNat 32 out.length } ∧
        t.reslen.toNat = out.length)

/-- R142, R150: CFBENC with a loaded IV and with a drawn one. The drawn value is the free value of Config (log entry 5),
and nothing is said of what it is. -/
def Obligations.CfbencEncryptsTheMessage : Prop :=
  encode .cfbenc = 0x00000015 ∧
  ∀ s : State,
    let a := s.lat.src.toNat
    let d := s.lat.dst.toNat
    let n := s.lat.len.toNat
    (¬ RegionsFit s a n d n → exec .cfbenc s = .next (endCipher .rangeError s)) ∧
    (RegionsFit s a n d n → s.status.keyv = false → exec .cfbenc s = .next (endCipher .keyNotLoaded s)) ∧
    (RegionsFit s a n d n → s.status.keyv = true → s.status.ivv = true →
      ∃ t, exec .cfbenc s = .next t ∧ (cfbEncrypt s.rk (memRead s a n) s.iv).1.length = n ∧
        WroteOutput s t d (cfbEncrypt s.rk (memRead s a n) s.iv).1 ∧
        t = { endCipher .success s with buf := t.buf, reslen := s.lat.len }) ∧
    (RegionsFit s a n d n → s.status.keyv = true → s.status.ivv = false →
      ∃ t, exec .cfbenc s = .next t ∧ (cfbEncrypt s.rk (memRead s a n) t.iv).1.length = n ∧
        WroteOutput s t d (cfbEncrypt s.rk (memRead s a n) t.iv).1 ∧
        t = { endCipher .success s with
          buf := t.buf, reslen := s.lat.len, iv := Config.rngDraw s.draws, draws := s.draws + 1
          status := { (endCipher .success s).status with ivgen := true } })

/-- R143: CFBDEC; the IV must be loaded, and it is read, not written. -/
def Obligations.CfbdecDecryptsTheMessage : Prop :=
  encode .cfbdec = 0x00000016 ∧
  ∀ s : State,
    let a := s.lat.src.toNat
    let d := s.lat.dst.toNat
    let n := s.lat.len.toNat
    (¬ RegionsFit s a n d n → exec .cfbdec s = .next (endCipher .rangeError s)) ∧
    (RegionsFit s a n d n → s.status.keyv = false → exec .cfbdec s = .next (endCipher .keyNotLoaded s)) ∧
    (RegionsFit s a n d n → s.status.keyv = true → s.status.ivv = false →
      exec .cfbdec s = .next (endCipher .missingIv s)) ∧
    (RegionsFit s a n d n → s.status.keyv = true → s.status.ivv = true →
      ∃ t, exec .cfbdec s = .next t ∧ (cfbDecrypt s.rk (memRead s a n) s.iv).1.length = n ∧
        WroteOutput s t d (cfbDecrypt s.rk (memRead s a n) s.iv).1 ∧
        t = { endCipher .success s with buf := t.buf, reslen := s.lat.len })

/-! ## What every command leaves unchanged -/

/-- R30: what persists across the completion of any command. The output region is the one the command's own meaning
checks and writes into. -/
def Obligations.CommandFrame : Prop :=
  ∀ (i : Instr) (s t : State), exec i s = .next t →
    (t.irqen = s.irqen ∧ t.status.cmdrej = s.status.cmdrej ∧ t.src = s.src ∧ t.dst = s.dst ∧ t.len = s.len ∧
      t.cmdLast = s.cmdLast ∧ t.lat = s.lat ∧ t.bufExp = s.bufExp ∧ t.resp = s.resp ∧ t.sched = s.sched ∧
      t.freed = s.freed ∧ t.epoch = s.epoch) ∧
    (∀ a, (∀ r, outputRegion i s.lat = some r → a < r.start ∨ r.start + r.len ≤ a) → byteAt t a = byteAt s a) ∧
    (i ≠ .ivld → i ≠ .zeroize → ¬ (i = .cfbenc ∧ s.status.ivv = false) → t.iv = s.iv) ∧
    (i = .nop ∨ i = .ivld ∨ (∃ b, i = .pad b) ∨ (∃ b, i = .unpad b) →
      t.k = s.k ∧ t.rk = s.rk ∧ t.fb = s.fb ∧ t.status.keyv = s.status.keyv) ∧
    (i = .nop ∨ i = .keyld ∨ (∃ b, i = .pad b) ∨ (∃ b, i = .unpad b) → t.status.ivv = s.status.ivv) ∧
    (i ≠ .cfbenc → t.status.ivgen = s.status.ivgen)

/-- R27: the completion of every word with OP 3 to 6, whatever its result, scrubs the key state; IV keeps its value unless
the command drew it. -/
def Obligations.CipherCommandsScrub : Prop :=
  ∀ s : State, s.status.busy = true → s.sched = [] → CipherWord s.lat.cmd →
    ∃ t, step s = .next t ∧ t.k = 0 ∧ t.rk = zeroKeys ∧ t.fb = 0 ∧ t.status.keyv = false ∧ t.status.ivv = false ∧
      (t.iv = s.iv ∨ (t.status.ivgen = true ∧ t.iv = Config.rngDraw s.draws))

/-- R184: a command that completes with a nonzero code has written no BUF byte, has RESLEN = 0, has drawn no IV, and has
changed only what its rule names before the raise and what Complete changes. The premises on RESLEN and IVGEN are what
the accept leaves (R15) and an invariant of the model (StepKeepsTheInvariant). -/
def Obligations.ErrorsLeaveNoOutput : Prop :=
  ∀ s t : State, s.status.busy = true → s.sched = [] → s.reslen = 0 → s.status.ivgen = false →
    step s = .next t → t.status.errcode ≠ .success →
    t = { s with k := t.k, rk := t.rk, fb := t.fb, status := t.status } ∧
    (∀ a, byteAt t a = byteAt s a) ∧ t.reslen = 0 ∧ t.draws = s.draws ∧
    t.status.busy = false ∧ t.status.done = true ∧ t.status.ivgen = false ∧ t.status.cmdrej = s.status.cmdrej ∧
    (¬ CipherWord s.lat.cmd → t.fb = s.fb) ∧
    (¬ CipherWord s.lat.cmd → s.lat.cmd ≠ 0x00000001 →
      t.k = s.k ∧ t.rk = s.rk ∧ t.status.keyv = s.status.keyv) ∧
    (¬ CipherWord s.lat.cmd → s.lat.cmd ≠ 0x00000002 → t.status.ivv = s.status.ivv)

/-- R28, R214: SRC, DST and LEN may be rewritten while a command runs: its completion does not depend on them. -/
def Obligations.RunningCommandIgnoresOperandWrites : Prop :=
  ∀ (s t : State) (a d n : Word), s.status.busy = true → s.sched = [] → step s = .next t →
    step { s with src := a, dst := d, len := n } = .next { t with src := a, dst := d, len := n }

/-! ## DES primitives (40_des_primitives.md) -/

/-- R82: DES bit j of the permuted value is DES bit T[j] of the value, for every table with entries in 1..N. -/
def Obligations.PermuteSelectsBits : Prop :=
  ∀ (n : Nat) (v : BitVec n) (table : List Nat) (j : Nat), (∀ x ∈ table, 1 ≤ x ∧ x ≤ n) → 1 ≤ j → j ≤ table.length →
    (permute table.length v table).getLsbD (table.length - j) = v.getLsbD (n - table.getD (j - 1) 0)

/-- R84: IP⁻¹ is the inverse of IP. -/
def Obligations.FinalPermutationInvertsInitial : Prop :=
  ∀ v : Block, permute 64 (permute 64 v tableIP) tableIPinv = v ∧ permute 64 (permute 64 v tableIPinv) tableIP = v

/-- R90: the shift schedule, its total, and each key half back at its starting value after round 16. -/
def Obligations.ShiftScheduleReturns : Prop :=
  (List.range 16).map (fun r => shiftOf (r + 1)) = [1, 1, 2, 2, 2, 2, 2, 2, 1, 2, 2, 2, 2, 2, 2, 1] ∧
  ((List.range 16).map (fun r => shiftOf (r + 1))).sum = 28 ∧
  ∀ kv : Block, keyHalves kv 16 = keyHalves kv 0

/-- R92 (a): the round keys do not depend on the parity bits, DES positions 8, 16, ..., 64. -/
def Obligations.KeyScheduleIgnoresParityBits : Prop :=
  ∀ kv m : Block, (∀ j, j < 64 → j % 8 ≠ 0 → m.getLsbD j = false) → keySchedule (kv ^^^ m) = keySchedule kv

/-- R114: every adjusted byte has odd parity, a byte of odd parity is unchanged, any other has its low bit flipped; the
adjustment is idempotent and never changes the round keys. -/
def Obligations.ParityAdjustMakesOddBytes : Prop :=
  (∀ b : Byte, popcount (oddByte b) % 2 = 1 ∧ (popcount b % 2 = 1 → oddByte b = b) ∧
    (popcount b % 2 = 0 → oddByte b = b ^^^ 1)) ∧
  (∀ bs : Bytes, bs.length = 8 →
    parityAdjust bs = bs.map oddByte ∧ parityAdjust (parityAdjust bs) = parityAdjust bs ∧
    keySchedule (be64 (parityAdjust bs)) = keySchedule (be64 bs))

/-- R91, R96, R98, R99: the worked examples of the key schedule, the round function, the round and the block core, the
last being the source's known-answer test, on 64-bit values and on byte strings, both directions. -/
def Obligations.KnownAnswers : Prop :=
  keyHalves 0x133457799BBCDFF1 0 = (0xF0CCAAF, 0x556678F) ∧
  roundKeyOf 0x133457799BBCDFF1 1 = 0x1B02EFFC7072 ∧ roundKeyOf 0x133457799BBCDFF1 16 = 0xCB3D8B0E17F5 ∧
  feistel 0xF0AAF0AA 0x1B02EFFC7072 = 0x234AA9BB ∧
  desRound (0xCC00CCFF, 0xF0AAF0AA) 0x1B02EFFC7072 = (0xF0AAF0AA, 0xEF4A6544) ∧
  desBlock 0x0123456789ABCDEF (keySchedule 0x133457799BBCDFF1) .enc = 0x85E813540F0AB405 ∧
  encryptBlock (keySchedule 0x133457799BBCDFF1) [0x01, 0x23, 0x45, 0x67, 0x89, 0xAB, 0xCD, 0xEF] =
    [0x85, 0xE8, 0x13, 0x54, 0x0F, 0x0A, 0xB4, 0x05] ∧
  decryptBlock (keySchedule 0x133457799BBCDFF1) [0x85, 0xE8, 0x13, 0x54, 0x0F, 0x0A, 0xB4, 0x05] =
    [0x01, 0x23, 0x45, 0x67, 0x89, 0xAB, 0xCD, 0xEF]

/-- R99, R100: under one sequence of round keys, any sequence, the two directions of the block core undo each other, on
every block and on every 8-byte string. -/
def Obligations.DecryptionInvertsEncryption : Prop :=
  ∀ rk : Vector RoundKey 16,
    (∀ x : Block, desBlock (desBlock x rk .enc) rk .dec = x ∧ desBlock (desBlock x rk .dec) rk .enc = x) ∧
    (∀ b : Bytes, b.length = 8 → decryptBlock rk (encryptBlock rk b) = b ∧ encryptBlock rk (decryptBlock rk b) = b)

/-! ## Padding and modes (43, 44) -/

/-- R130: the pad count is 1 to bs, and the padded length is the least multiple of bs above the length. -/
def Obligations.PadReachesNextMultiple : Prop :=
  ∀ (d : Bytes) (bs : Nat), 1 ≤ bs → bs ≤ 255 →
    ∃ p, 1 ≤ p ∧ p ≤ bs ∧ p = bs - d.length % bs ∧ padBytes d bs = d ++ List.replicate p (BitVec.ofNat 8 p) ∧
      (padBytes d bs).length % bs = 0 ∧ d.length < (padBytes d bs).length ∧
      ∀ m, d.length < m → m % bs = 0 → (padBytes d bs).length ≤ m

/-- R134: unpadding undoes padding, for every byte string and every block size. -/
def Obligations.UnpadInvertsPad : Prop :=
  ∀ (d : Bytes) (bs : Nat), 1 ≤ bs → bs ≤ 255 → unpadBytes (padBytes d bs) bs = some d

/-- R130, R131: unpadding answers a string exactly when its input is that string padded. -/
def Obligations.UnpadAcceptsExactlyPaddedStrings : Prop :=
  ∀ (d r : Bytes) (bs : Nat), 1 ≤ bs → bs ≤ 255 → (unpadBytes d bs = some r ↔ d = padBytes r bs)

/-- R145, R147: ECB encryption is EncryptBlock on each block of the padded message, and on nothing else; ECB decryption fails
on a length that is no positive multiple of 8, and else unpads the string whose blocks are DecryptBlock of the ciphertext's
blocks; under one sequence of round keys decryption undoes encryption. -/
def Obligations.EcbRoundTrip : Prop :=
  ∀ rk : Vector RoundKey 16,
    (∀ d : Bytes, (ecbEncrypt rk d).length = (padBytes d 8).length ∧
      ∀ j, 8 * j < (padBytes d 8).length → blockOf (ecbEncrypt rk d) j = encryptBlock rk (blockOf (padBytes d 8) j)) ∧
    (∀ c : Bytes, c.length = 0 ∨ c.length % 8 ≠ 0 → ecbDecrypt rk c = none) ∧
    (∀ c : Bytes, c.length ≠ 0 → c.length % 8 = 0 →
      ∃ y : Bytes, y.length = c.length ∧ (∀ j, 8 * j < c.length → blockOf y j = decryptBlock rk (blockOf c j)) ∧
        ecbDecrypt rk c = unpadBytes y 8) ∧
    ∀ d : Bytes, ecbDecrypt rk (ecbEncrypt rk d) = some d

/-- R147: CFB decryption undoes CFB encryption under one sequence of round keys and one IV, at every length. -/
def Obligations.CfbRoundTrip : Prop :=
  ∀ (rk : Vector RoundKey 16) (p : Bytes) (iv : Block), (cfbDecrypt rk (cfbEncrypt rk p iv).1 iv).1 = p

/-- R146: CFB keeps the length; byte i of the result is byte i of the input XOR byte i mod 8 of EncryptBlock of the feedback
block, which is the IV for the first segment and the previous ciphertext block for every later one, of the produced
ciphertext in encryption and of the received one in decryption; the ciphertext of a message's beginning is the beginning of
its ciphertext. -/
def Obligations.CfbCiphertextGrowsWithTheMessage : Prop :=
  ∀ (rk : Vector RoundKey 16) (p q : Bytes) (iv : Block),
    let c := (cfbEncrypt rk p iv).1
    let r := (cfbDecrypt rk p iv).1
    c.length = p.length ∧ r.length = p.length ∧
    (∀ i, i < p.length →
      c.getD i 0 = p.getD i 0 ^^^ (encryptBlock rk (feedbackBlock iv c (i / 8))).getD (i % 8) 0) ∧
    (∀ i, i < p.length →
      r.getD i 0 = p.getD i 0 ^^^ (encryptBlock rk (feedbackBlock iv p (i / 8))).getD (i % 8) 0) ∧
    (cfbEncrypt rk (p ++ q) iv).1.take p.length = c

/-! ## The host bus and the registers (10, 20) -/

/-- R42, R43, R51: no read of a register or of BUF changes anything but the answer the host gets. -/
def Obligations.ReadsHaveNoSideEffect : Prop :=
  ∀ (t : Tx) (s : State), t.write = false → transact t s = { s with resp := (transact t s).resp }

/-- R41, R42, R43: which transactions are bus errors, and that a bus error changes no engine state and answers 0. -/
def Obligations.BusErrorsChangeNothing : Prop :=
  ∀ (t : Tx) (s : State),
    ((transact t s).resp.err = true ↔ IsBusError t s) ∧
    (IsBusError t s → transact t s = { s with resp := { rdata := 0, err := true } }) ∧
    (t.write = true → (transact t s).resp.rdata = 0)

/-- R23, R24, R188: no transaction's answer depends on K, RK or FB. -/
def Obligations.KeyStateIsNeverRead : Prop :=
  ∀ (t : Tx) (s : State) (k fb : Block) (rk : Vector RoundKey 16),
    (transact t { s with k := k, rk := rk, fb := fb }).resp = (transact t s).resp

/-- R22: an aligned 32-bit access of a reserved offset reads 0, and a write is ignored. -/
def Obligations.ReservedOffsetsReadZero : Prop :=
  ∀ (off : BitVec 17) (v : Word) (s : State), 0x028 ≤ off.toNat → off.toNat ≤ 0x0FFFF → off.toNat % 4 = 0 →
    transact (read32 off) s = { s with resp := { rdata := 0, err := false } } ∧
    transact (write32 off v) s = { s with resp := { rdata := 0, err := false } }

/-- R15: a CMD write is rejected while BUSY and accepted otherwise, whatever the word; a read gives CMD_LAST, which is 0 at
reset. -/
def Obligations.CmdWriteAcceptsOrRejects : Prop :=
  (∀ (s : State) (w : Word),
    (s.status.busy = true → transact (write32 0x00C w) s =
      { s with status := { s.status with cmdrej := true }, resp := { rdata := 0, err := false } }) ∧
    (s.status.busy = false → transact (write32 0x00C w) s =
      { s with
        lat := { cmd := w, src := s.src, dst := s.dst, len := s.len }, cmdLast := w, reslen := 0
        status := { s.status with busy := true, done := false, errcode := .success, ivgen := false }
        resp := { rdata := 0, err := false } }) ∧
    (transact (read32 0x00C) s).resp = { rdata := s.cmdLast, err := false }) ∧
  State.reset.cmdLast = 0

/-- R14, R182: each field of STATUS at its bits, the reserved bits 0, the number of every result code, by which the adapter
knows the code again, and what a write does. -/
def Obligations.StatusFieldsAndWriteOneToClear : Prop :=
  ∀ (s : State) (v : Word),
    let r := (transact (read32 0x008) s).resp.rdata
    (r.getLsbD 0 = s.status.busy ∧ r.getLsbD 1 = s.status.done ∧ r.getLsbD 2 = s.status.keyv ∧
      r.getLsbD 3 = s.status.ivv ∧ r.getLsbD 4 = s.status.ivgen ∧ r.getLsbD 5 = s.status.cmdrej ∧
      r.extractLsb' 6 2 = 0 ∧ r.extractLsb' 8 4 = codeBits s.status.errcode ∧ r.extractLsb' 12 20 = 0) ∧
    (codeBits .success = 0 ∧ codeBits .invalidKeyLength = 1 ∧ codeBits .invalidIvLength = 2 ∧
      codeBits .unsupportedMode = 3 ∧ codeBits .invalidPadding = 4 ∧ codeBits .invalidCiphertextEncoding = 5 ∧
      codeBits .invalidUtf8 = 6 ∧ codeBits .missingIv = 7 ∧ codeBits .illegalCommand = 8 ∧ codeBits .rangeError = 9 ∧
      codeBits .keyNotLoaded = 10 ∧ codeBits .invalidBlockLength = 11 ∧ codeBits .messageTooLong = 12 ∧
      ∀ e : ErrCode, codeOfBits (codeBits e) = some e) ∧
    transact (write32 0x008 v) s =
      { s with
        status := { s.status with
          done := if v.getLsbD 1 = true then false else s.status.done
          cmdrej := if v.getLsbD 5 = true then false else s.status.cmdrej }
        resp := { rdata := 0, err := false } }

/-- R13: IRQEN is read and written, SRST reads 0 and performs the soft reset, in which IRQEN of the same write is
discarded; the reserved bits read 0. -/
def Obligations.CtrlEnablesAndResets : Prop :=
  ∀ (s : State) (v : Word),
    let r := (transact (read32 0x004) s).resp.rdata
    (r.getLsbD 0 = s.irqen ∧ r.extractLsb' 1 31 = 0) ∧
    (v.getLsbD 1 = false → transact (write32 0x004 v) s =
      { s with irqen := v.getLsbD 0, resp := { rdata := 0, err := false } }) ∧
    (v.getLsbD 1 = true → transact (write32 0x004 v) s =
      { softReset s with resp := { rdata := 0, err := false } } ∧ (transact (write32 0x004 v) s).irqen = false)

/-- R12, R17 to R21: ID is constant; SRC, DST and LEN hold what was written and the latch keeps its own; RESLEN, IV_HI and
IV_LO are read and ignore writes; the IV's bytes stand in IV_HI and IV_LO in order. -/
def Obligations.OperandAndResultRegisters : Prop :=
  ∀ (s : State) (v : Word),
    let ok : Resp := { rdata := 0, err := false }
    let hi := (transact (read32 0x020) s).resp.rdata
    let lo := (transact (read32 0x024) s).resp.rdata
    ((transact (read32 0x000) s).resp = { rdata := 0x44450100, err := false } ∧
      transact (write32 0x000 v) s = { s with resp := ok }) ∧
    (transact (write32 0x010 v) s = { s with src := v, resp := ok } ∧
      transact (write32 0x014 v) s = { s with dst := v, resp := ok } ∧
      transact (write32 0x018 v) s = { s with len := v, resp := ok } ∧
      (transact (read32 0x010) s).resp.rdata = s.src ∧ (transact (read32 0x014) s).resp.rdata = s.dst ∧
      (transact (read32 0x018) s).resp.rdata = s.len) ∧
    ((transact (read32 0x01C) s).resp.rdata = s.reslen ∧ transact (write32 0x01C v) s = { s with resp := ok } ∧
      transact (write32 0x020 v) s = { s with resp := ok } ∧ transact (write32 0x024 v) s = { s with resp := ok }) ∧
    hi = s.iv.extractLsb' 32 32 ∧ lo = s.iv.extractLsb' 0 32 ∧ bytes4 hi ++ bytes4 lo = bytes8 s.iv

/-- R43, R49: in IDLE, a 32-bit write through the window puts the most significant byte at the lowest address and leaves
every other byte, and a read gives the word back; an 8-bit write and read move one byte. -/
def Obligations.WindowMovesBytesBigEndian : Prop :=
  ∀ (s : State) (a : Nat) (v : Word), s.status.busy = false → a < s.bufBytes →
    let t := transact (write32 (bufOffset a) v) s
    let u := transact (write8 (bufOffset a) v) s
    (a % 4 = 0 →
      t = { s with buf := t.buf, resp := { rdata := 0, err := false } } ∧
      (byteAt t a = v.extractLsb' 24 8 ∧ byteAt t (a + 1) = v.extractLsb' 16 8 ∧
        byteAt t (a + 2) = v.extractLsb' 8 8 ∧ byteAt t (a + 3) = v.extractLsb' 0 8) ∧
      (∀ b, b < a ∨ a + 4 ≤ b → byteAt t b = byteAt s b) ∧
      (transact (read32 (bufOffset a)) t).resp = { rdata := v, err := false }) ∧
    (u = { s with buf := u.buf, resp := { rdata := 0, err := false } } ∧
      byteAt u a = v.extractLsb' 0 8 ∧ (∀ b, b ≠ a → byteAt u b = byteAt s b) ∧
      (transact (read8 (bufOffset a)) u).resp = { rdata := (v.extractLsb' 0 8).zeroExtend 32, err := false })

/-- R43: in IDLE, window addresses at or above BUF_BYTES read 0 and ignore writes. -/
def Obligations.WindowPastTheBufferReadsZero : Prop :=
  ∀ (s : State) (a : Nat) (v : Word), s.status.busy = false → s.bufBytes ≤ a → a < 0x10000 →
    let same : State := { s with resp := { rdata := 0, err := false } }
    transact (read8 (bufOffset a)) s = same ∧ transact (write8 (bufOffset a) v) s = same ∧
    (a % 4 = 0 → transact (read32 (bufOffset a)) s = same ∧ transact (write32 (bufOffset a) v) s = same)

/-- R186: the interrupt line is IRQEN AND DONE: a completion asserts it while IRQEN = 1, setting IRQEN while DONE = 1
asserts it at once, and clearing DONE, clearing IRQEN and the next accept deassert it. -/
def Obligations.InterruptIsALevel : Prop :=
  ∀ s : State, irq s = (s.irqen && s.status.done) ∧
    (∀ t, s.status.busy = true → s.sched = [] → step s = .next t → irq t = s.irqen) ∧
    (∀ v : Word, v.getLsbD 1 = true → irq (transact (write32 0x008 v) s) = false) ∧
    irq (transact (write32 0x004 0) s) = false ∧
    irq (transact (write32 0x004 1) s) = s.status.done ∧
    (∀ w : Word, s.status.busy = false → irq (transact (write32 0x00C w) s) = false)

/-- R187, R211: a CMD write ordered before the completion of the running command is rejected and lost; a W1C of DONE
ordered before the completion has no lasting effect; a CMD write ordered after the completion is accepted. -/
def Obligations.OrderOfHostAndCompletion : Prop :=
  ∀ (s : State) (w : Word) (rest : List Event), s.status.busy = true →
    (s.sched = .host (write32 0x00C w) :: rest → step s = .next
      { s with
        sched := rest, status := { s.status with cmdrej := true }, resp := { rdata := 0, err := false } }) ∧
    (s.sched = [.host (write32 0x008 2)] →
      ∃ t u, step s = .next t ∧ t.status.busy = true ∧ step t = .next u ∧ u.status.done = true ∧
        u.status.busy = false) ∧
    (s.sched = [.engine true, .host (write32 0x00C w)] →
      ∃ t u, step s = .next t ∧ step t = .next u ∧ u.status.busy = true ∧ u.lat.cmd = w ∧ u.cmdLast = w ∧
        u.status.cmdrej = s.status.cmdrej)

/-! ## Reset (10, 70) -/

/-- R29: the state after a hardware reset. That BUF reads as the free values of Config, and the values of the model's own
fields, are the model's choice (log entries 1 to 6). -/
def Obligations.ResetValues : Prop :=
  let s := State.reset
  s.irqen = false ∧
  s.status = { busy := false, done := false, keyv := false, ivv := false, ivgen := false, cmdrej := false, errcode := .success } ∧
  s.cmdLast = 0 ∧ s.src = 0 ∧ s.dst = 0 ∧ s.len = 0 ∧ s.reslen = 0 ∧ s.iv = 0 ∧ s.k = 0 ∧
  (∀ i : Fin 16, s.rk[i] = 0) ∧ s.fb = 0 ∧ s.lat = { cmd := 0, src := 0, dst := 0, len := 0 } ∧
  (∀ a, byteAt s a = Config.bufInit 0 a) ∧
  (transact (read32 0x000) s).resp.rdata = 0x44450100 ∧ irq s = false

/-- R201, R202: a soft reset gives every register its reset value; BUF keeps its bytes outside the output region of the
abandoned command, whose bytes become free values never used before, the count of them rising by the region's length (log
entry 6); where no region in range is abandoned, every byte and the count are kept. -/
def Obligations.SoftResetKeepsTheBuffer : Prop :=
  ∀ (s : State) (v : Word), v.getLsbD 1 = true →
    let t := transact (write32 0x004 v) s
    let kept := t.freed = s.freed ∧ ∀ a, byteAt t a = byteAt s a
    t = { State.reset with
      buf := t.buf, freed := t.freed, bufExp := s.bufExp, sched := s.sched, draws := s.draws, epoch := s.epoch } ∧
    (s.status.busy = false → kept) ∧
    ((∀ i, decode s.lat.cmd ≠ .command i) → kept) ∧
    (∀ i, decode s.lat.cmd = .command i →
      (∀ r, outputRegion i s.lat = some r → r.start + r.len ≤ s.bufBytes → s.status.busy = true →
        t.freed = s.freed + r.len ∧
        (∀ j, j < r.len → byteAt t (r.start + j) = Config.abandonedByte (s.freed + j)) ∧
        ∀ a, a < r.start ∨ r.start + r.len ≤ a → byteAt t a = byteAt s a) ∧
      ((∀ r, outputRegion i s.lat = some r → s.bufBytes < r.start + r.len) → kept))

/-- R200: a hardware reset gives every register its reset value, abandons a running command, and leaves every byte of BUF
a new free value (log entry 1). -/
def Obligations.HardResetDrawsTheBufferAnew : Prop :=
  ∀ (s : State) (rest : List Event), s.sched = .reset :: rest →
    ∃ t, step s = .next t ∧
      t = { State.reset with
        bufExp := s.bufExp, sched := rest, draws := s.draws, freed := s.freed, epoch := s.epoch + 1 } ∧
      ∀ a, byteAt t a = Config.bufInit (s.epoch + 1) a

/-! ## The invariant -/

/-- R20, R23 to R29, R40, R51, R182, R184: the invariant holds at reset. -/
def Obligations.ResetMeetsTheInvariant : Prop := State.Inv State.reset

/-- R20, R23 to R28, R40, R51, R182, R184: every step from every state that meets the invariant, whatever the schedule,
gives a state that meets it. -/
def Obligations.StepKeepsTheInvariant : Prop :=
  ∀ s t : State, s.Inv → step s = .next t → t.Inv

/-! ## The host adapter (48_host_adapter.md) -/

/-- R160, R162, R169: hex and UTF-8 decoding undo their encodings; hex decoding answers a byte string exactly when the text,
letter case aside, is its encoding, so an odd length and any other character fail; UTF-8 decoding answers only the text whose
encoding its input is, so no ill-formed input decodes. -/
def Obligations.TextCodecsRoundTrip : Prop :=
  (∀ b : Bytes, hexDecode (hexEncode b) = some b) ∧
  (∀ (t : Text) (b : Bytes), hexDecode t = some b ↔ t.map Char.toLower = hexEncode b) ∧
  (∀ t : Text, t.length % 2 = 1 → hexDecode t = none) ∧
  (∀ (t : Text) (c : Char), c ∈ t →
    c ∉ ['0', '1', '2', '3', '4', '5', '6', '7', '8', '9', 'a', 'b', 'c', 'd', 'e', 'f', 'A', 'B', 'C', 'D', 'E', 'F'] →
      hexDecode t = none) ∧
  (∀ n, n < 6 → hexValue (Char.ofNat (97 + n)) = hexValue (Char.ofNat (65 + n)) ∧
    hexValue (Char.ofNat (97 + n)) = some (10 + n)) ∧
  (∀ t : Text, utf8Decode (utf8Encode t) = some t) ∧
  (∀ (b : Bytes) (t : Text), utf8Decode b = some t → utf8Encode t = b)

/-- R166: from an IDLE engine with no key loaded, no key state is left after either boundary function returns, whatever it
returns, and the engine is IDLE again. The host's wait and its transactions are those of log entry 14. -/
def Obligations.AdapterLeavesNoKey : Prop :=
  ∀ (rawTrimmed : Bool) (x key mode : Text) (iv : Option Text) (s : State), s.Inv → s.status.busy = false →
    s.status.keyv = false →
    (∃ t r, encryptText rawTrimmed x key mode iv s = .next (t, r) ∧ t.status.busy = false ∧ t.status.keyv = false ∧
      t.k = 0 ∧ t.rk = zeroKeys) ∧
    (∃ t r, decryptText rawTrimmed x key mode iv s = .next (t, r) ∧ t.status.busy = false ∧ t.status.keyv = false ∧
      t.k = 0 ∧ t.rk = zeroKeys)

/-- R169 (a), (d): what encrypt returns decrypts back to the plaintext with the same key and mode and, in CFB, the IV that
encrypt returned, supplied or drawn. The host's wait and its transactions are those of log entry 14. -/
def Obligations.AdapterRoundTrip : Prop :=
  ∀ (rawTrimmed : Bool) (p key mode c : Text) (iv ivOut : Option Text) (s t : State), s.status.busy = false →
    encryptText rawTrimmed p key mode iv s = .next (t, .ok (c, ivOut)) →
    ∃ u, decryptText rawTrimmed c key mode ivOut t = .next (u, .ok p)
end

