-- ==== Sys2Proof/Laws/State.lean ====
section
/-!
SUPPORT. One lemma per field per update of State, each true by rfl, so that no later proof unfolds a record update.
-/
namespace Sys2Proof.Machine

@[simp] theorem memWrite_irqen (s : State) (a : Nat) (bs : Bytes) : (memWrite s a bs).irqen = s.irqen := rfl
@[simp] theorem memWrite_status (s : State) (a : Nat) (bs : Bytes) : (memWrite s a bs).status = s.status := rfl
@[simp] theorem memWrite_cmdLast (s : State) (a : Nat) (bs : Bytes) : (memWrite s a bs).cmdLast = s.cmdLast := rfl
@[simp] theorem memWrite_src (s : State) (a : Nat) (bs : Bytes) : (memWrite s a bs).src = s.src := rfl
@[simp] theorem memWrite_dst (s : State) (a : Nat) (bs : Bytes) : (memWrite s a bs).dst = s.dst := rfl
@[simp] theorem memWrite_len (s : State) (a : Nat) (bs : Bytes) : (memWrite s a bs).len = s.len := rfl
@[simp] theorem memWrite_reslen (s : State) (a : Nat) (bs : Bytes) : (memWrite s a bs).reslen = s.reslen := rfl
@[simp] theorem memWrite_iv (s : State) (a : Nat) (bs : Bytes) : (memWrite s a bs).iv = s.iv := rfl
@[simp] theorem memWrite_k (s : State) (a : Nat) (bs : Bytes) : (memWrite s a bs).k = s.k := rfl
@[simp] theorem memWrite_rk (s : State) (a : Nat) (bs : Bytes) : (memWrite s a bs).rk = s.rk := rfl
@[simp] theorem memWrite_fb (s : State) (a : Nat) (bs : Bytes) : (memWrite s a bs).fb = s.fb := rfl
@[simp] theorem memWrite_lat (s : State) (a : Nat) (bs : Bytes) : (memWrite s a bs).lat = s.lat := rfl
@[simp] theorem memWrite_buf (s : State) (a : Nat) (bs : Bytes) : (memWrite s a bs).buf = Memory.writeAll s.buf a bs := rfl
@[simp] theorem memWrite_bufExp (s : State) (a : Nat) (bs : Bytes) : (memWrite s a bs).bufExp = s.bufExp := rfl
@[simp] theorem memWrite_resp (s : State) (a : Nat) (bs : Bytes) : (memWrite s a bs).resp = s.resp := rfl
@[simp] theorem memWrite_sched (s : State) (a : Nat) (bs : Bytes) : (memWrite s a bs).sched = s.sched := rfl
@[simp] theorem memWrite_draws (s : State) (a : Nat) (bs : Bytes) : (memWrite s a bs).draws = s.draws := rfl
@[simp] theorem memWrite_freed (s : State) (a : Nat) (bs : Bytes) : (memWrite s a bs).freed = s.freed := rfl
@[simp] theorem memWrite_epoch (s : State) (a : Nat) (bs : Bytes) : (memWrite s a bs).epoch = s.epoch := rfl

@[simp] theorem setReslen_irqen (n : Nat) (s : State) : (setReslen n s).irqen = s.irqen := rfl
@[simp] theorem setReslen_status (n : Nat) (s : State) : (setReslen n s).status = s.status := rfl
@[simp] theorem setReslen_cmdLast (n : Nat) (s : State) : (setReslen n s).cmdLast = s.cmdLast := rfl
@[simp] theorem setReslen_src (n : Nat) (s : State) : (setReslen n s).src = s.src := rfl
@[simp] theorem setReslen_dst (n : Nat) (s : State) : (setReslen n s).dst = s.dst := rfl
@[simp] theorem setReslen_len (n : Nat) (s : State) : (setReslen n s).len = s.len := rfl
@[simp] theorem setReslen_reslen (n : Nat) (s : State) : (setReslen n s).reslen = BitVec.ofNat 32 n := rfl
@[simp] theorem setReslen_iv (n : Nat) (s : State) : (setReslen n s).iv = s.iv := rfl
@[simp] theorem setReslen_k (n : Nat) (s : State) : (setReslen n s).k = s.k := rfl
@[simp] theorem setReslen_rk (n : Nat) (s : State) : (setReslen n s).rk = s.rk := rfl
@[simp] theorem setReslen_fb (n : Nat) (s : State) : (setReslen n s).fb = s.fb := rfl
@[simp] theorem setReslen_lat (n : Nat) (s : State) : (setReslen n s).lat = s.lat := rfl
@[simp] theorem setReslen_buf (n : Nat) (s : State) : (setReslen n s).buf = s.buf := rfl
@[simp] theorem setReslen_bufExp (n : Nat) (s : State) : (setReslen n s).bufExp = s.bufExp := rfl
@[simp] theorem setReslen_resp (n : Nat) (s : State) : (setReslen n s).resp = s.resp := rfl
@[simp] theorem setReslen_sched (n : Nat) (s : State) : (setReslen n s).sched = s.sched := rfl
@[simp] theorem setReslen_draws (n : Nat) (s : State) : (setReslen n s).draws = s.draws := rfl
@[simp] theorem setReslen_freed (n : Nat) (s : State) : (setReslen n s).freed = s.freed := rfl
@[simp] theorem setReslen_epoch (n : Nat) (s : State) : (setReslen n s).epoch = s.epoch := rfl

@[simp] theorem setFeedback_irqen (v : Block) (s : State) : (setFeedback v s).irqen = s.irqen := rfl
@[simp] theorem setFeedback_status (v : Block) (s : State) : (setFeedback v s).status = s.status := rfl
@[simp] theorem setFeedback_cmdLast (v : Block) (s : State) : (setFeedback v s).cmdLast = s.cmdLast := rfl
@[simp] theorem setFeedback_src (v : Block) (s : State) : (setFeedback v s).src = s.src := rfl
@[simp] theorem setFeedback_dst (v : Block) (s : State) : (setFeedback v s).dst = s.dst := rfl
@[simp] theorem setFeedback_len (v : Block) (s : State) : (setFeedback v s).len = s.len := rfl
@[simp] theorem setFeedback_reslen (v : Block) (s : State) : (setFeedback v s).reslen = s.reslen := rfl
@[simp] theorem setFeedback_iv (v : Block) (s : State) : (setFeedback v s).iv = s.iv := rfl
@[simp] theorem setFeedback_k (v : Block) (s : State) : (setFeedback v s).k = s.k := rfl
@[simp] theorem setFeedback_rk (v : Block) (s : State) : (setFeedback v s).rk = s.rk := rfl
@[simp] theorem setFeedback_fb (v : Block) (s : State) : (setFeedback v s).fb = v := rfl
@[simp] theorem setFeedback_lat (v : Block) (s : State) : (setFeedback v s).lat = s.lat := rfl
@[simp] theorem setFeedback_buf (v : Block) (s : State) : (setFeedback v s).buf = s.buf := rfl
@[simp] theorem setFeedback_bufExp (v : Block) (s : State) : (setFeedback v s).bufExp = s.bufExp := rfl
@[simp] theorem setFeedback_resp (v : Block) (s : State) : (setFeedback v s).resp = s.resp := rfl
@[simp] theorem setFeedback_sched (v : Block) (s : State) : (setFeedback v s).sched = s.sched := rfl
@[simp] theorem setFeedback_draws (v : Block) (s : State) : (setFeedback v s).draws = s.draws := rfl
@[simp] theorem setFeedback_freed (v : Block) (s : State) : (setFeedback v s).freed = s.freed := rfl
@[simp] theorem setFeedback_epoch (v : Block) (s : State) : (setFeedback v s).epoch = s.epoch := rfl

@[simp] theorem scrub_irqen (s : State) : (scrub s).irqen = s.irqen := rfl
@[simp] theorem scrub_status (s : State) : (scrub s).status = { s.status with keyv := false, ivv := false } := rfl
@[simp] theorem scrub_cmdLast (s : State) : (scrub s).cmdLast = s.cmdLast := rfl
@[simp] theorem scrub_src (s : State) : (scrub s).src = s.src := rfl
@[simp] theorem scrub_dst (s : State) : (scrub s).dst = s.dst := rfl
@[simp] theorem scrub_len (s : State) : (scrub s).len = s.len := rfl
@[simp] theorem scrub_reslen (s : State) : (scrub s).reslen = s.reslen := rfl
@[simp] theorem scrub_iv (s : State) : (scrub s).iv = s.iv := rfl
@[simp] theorem scrub_k (s : State) : (scrub s).k = 0 := rfl
@[simp] theorem scrub_rk (s : State) : (scrub s).rk = zeroKeys := rfl
@[simp] theorem scrub_fb (s : State) : (scrub s).fb = 0 := rfl
@[simp] theorem scrub_lat (s : State) : (scrub s).lat = s.lat := rfl
@[simp] theorem scrub_buf (s : State) : (scrub s).buf = s.buf := rfl
@[simp] theorem scrub_bufExp (s : State) : (scrub s).bufExp = s.bufExp := rfl
@[simp] theorem scrub_resp (s : State) : (scrub s).resp = s.resp := rfl
@[simp] theorem scrub_sched (s : State) : (scrub s).sched = s.sched := rfl
@[simp] theorem scrub_draws (s : State) : (scrub s).draws = s.draws := rfl
@[simp] theorem scrub_freed (s : State) : (scrub s).freed = s.freed := rfl
@[simp] theorem scrub_epoch (s : State) : (scrub s).epoch = s.epoch := rfl

@[simp] theorem failKey_irqen (s : State) : (failKey s).irqen = s.irqen := rfl
@[simp] theorem failKey_status (s : State) : (failKey s).status = { s.status with keyv := false } := rfl
@[simp] theorem failKey_cmdLast (s : State) : (failKey s).cmdLast = s.cmdLast := rfl
@[simp] theorem failKey_src (s : State) : (failKey s).src = s.src := rfl
@[simp] theorem failKey_dst (s : State) : (failKey s).dst = s.dst := rfl
@[simp] theorem failKey_len (s : State) : (failKey s).len = s.len := rfl
@[simp] theorem failKey_reslen (s : State) : (failKey s).reslen = s.reslen := rfl
@[simp] theorem failKey_iv (s : State) : (failKey s).iv = s.iv := rfl
@[simp] theorem failKey_k (s : State) : (failKey s).k = 0 := rfl
@[simp] theorem failKey_rk (s : State) : (failKey s).rk = zeroKeys := rfl
@[simp] theorem failKey_fb (s : State) : (failKey s).fb = s.fb := rfl
@[simp] theorem failKey_lat (s : State) : (failKey s).lat = s.lat := rfl
@[simp] theorem failKey_buf (s : State) : (failKey s).buf = s.buf := rfl
@[simp] theorem failKey_bufExp (s : State) : (failKey s).bufExp = s.bufExp := rfl
@[simp] theorem failKey_resp (s : State) : (failKey s).resp = s.resp := rfl
@[simp] theorem failKey_sched (s : State) : (failKey s).sched = s.sched := rfl
@[simp] theorem failKey_draws (s : State) : (failKey s).draws = s.draws := rfl
@[simp] theorem failKey_freed (s : State) : (failKey s).freed = s.freed := rfl
@[simp] theorem failKey_epoch (s : State) : (failKey s).epoch = s.epoch := rfl

@[simp] theorem loadKey_irqen (key : Block) (s : State) : (loadKey key s).irqen = s.irqen := rfl
@[simp] theorem loadKey_status (key : Block) (s : State) : (loadKey key s).status = { s.status with keyv := true } := rfl
@[simp] theorem loadKey_cmdLast (key : Block) (s : State) : (loadKey key s).cmdLast = s.cmdLast := rfl
@[simp] theorem loadKey_src (key : Block) (s : State) : (loadKey key s).src = s.src := rfl
@[simp] theorem loadKey_dst (key : Block) (s : State) : (loadKey key s).dst = s.dst := rfl
@[simp] theorem loadKey_len (key : Block) (s : State) : (loadKey key s).len = s.len := rfl
@[simp] theorem loadKey_reslen (key : Block) (s : State) : (loadKey key s).reslen = 0 := rfl
@[simp] theorem loadKey_iv (key : Block) (s : State) : (loadKey key s).iv = s.iv := rfl
@[simp] theorem loadKey_k (key : Block) (s : State) : (loadKey key s).k = key := rfl
@[simp] theorem loadKey_rk (key : Block) (s : State) : (loadKey key s).rk = keySchedule key := rfl
@[simp] theorem loadKey_fb (key : Block) (s : State) : (loadKey key s).fb = s.fb := rfl
@[simp] theorem loadKey_lat (key : Block) (s : State) : (loadKey key s).lat = s.lat := rfl
@[simp] theorem loadKey_buf (key : Block) (s : State) : (loadKey key s).buf = s.buf := rfl
@[simp] theorem loadKey_bufExp (key : Block) (s : State) : (loadKey key s).bufExp = s.bufExp := rfl
@[simp] theorem loadKey_resp (key : Block) (s : State) : (loadKey key s).resp = s.resp := rfl
@[simp] theorem loadKey_sched (key : Block) (s : State) : (loadKey key s).sched = s.sched := rfl
@[simp] theorem loadKey_draws (key : Block) (s : State) : (loadKey key s).draws = s.draws := rfl
@[simp] theorem loadKey_freed (key : Block) (s : State) : (loadKey key s).freed = s.freed := rfl
@[simp] theorem loadKey_epoch (key : Block) (s : State) : (loadKey key s).epoch = s.epoch := rfl

@[simp] theorem failIv_irqen (s : State) : (failIv s).irqen = s.irqen := rfl
@[simp] theorem failIv_status (s : State) : (failIv s).status = { s.status with ivv := false } := rfl
@[simp] theorem failIv_cmdLast (s : State) : (failIv s).cmdLast = s.cmdLast := rfl
@[simp] theorem failIv_src (s : State) : (failIv s).src = s.src := rfl
@[simp] theorem failIv_dst (s : State) : (failIv s).dst = s.dst := rfl
@[simp] theorem failIv_len (s : State) : (failIv s).len = s.len := rfl
@[simp] theorem failIv_reslen (s : State) : (failIv s).reslen = s.reslen := rfl
@[simp] theorem failIv_iv (s : State) : (failIv s).iv = s.iv := rfl
@[simp] theorem failIv_k (s : State) : (failIv s).k = s.k := rfl
@[simp] theorem failIv_rk (s : State) : (failIv s).rk = s.rk := rfl
@[simp] theorem failIv_fb (s : State) : (failIv s).fb = s.fb := rfl
@[simp] theorem failIv_lat (s : State) : (failIv s).lat = s.lat := rfl
@[simp] theorem failIv_buf (s : State) : (failIv s).buf = s.buf := rfl
@[simp] theorem failIv_bufExp (s : State) : (failIv s).bufExp = s.bufExp := rfl
@[simp] theorem failIv_resp (s : State) : (failIv s).resp = s.resp := rfl
@[simp] theorem failIv_sched (s : State) : (failIv s).sched = s.sched := rfl
@[simp] theorem failIv_draws (s : State) : (failIv s).draws = s.draws := rfl
@[simp] theorem failIv_freed (s : State) : (failIv s).freed = s.freed := rfl
@[simp] theorem failIv_epoch (s : State) : (failIv s).epoch = s.epoch := rfl

@[simp] theorem loadIv_irqen (v : Block) (s : State) : (loadIv v s).irqen = s.irqen := rfl
@[simp] theorem loadIv_status (v : Block) (s : State) : (loadIv v s).status = { s.status with ivv := true } := rfl
@[simp] theorem loadIv_cmdLast (v : Block) (s : State) : (loadIv v s).cmdLast = s.cmdLast := rfl
@[simp] theorem loadIv_src (v : Block) (s : State) : (loadIv v s).src = s.src := rfl
@[simp] theorem loadIv_dst (v : Block) (s : State) : (loadIv v s).dst = s.dst := rfl
@[simp] theorem loadIv_len (v : Block) (s : State) : (loadIv v s).len = s.len := rfl
@[simp] theorem loadIv_reslen (v : Block) (s : State) : (loadIv v s).reslen = 0 := rfl
@[simp] theorem loadIv_iv (v : Block) (s : State) : (loadIv v s).iv = v := rfl
@[simp] theorem loadIv_k (v : Block) (s : State) : (loadIv v s).k = s.k := rfl
@[simp] theorem loadIv_rk (v : Block) (s : State) : (loadIv v s).rk = s.rk := rfl
@[simp] theorem loadIv_fb (v : Block) (s : State) : (loadIv v s).fb = s.fb := rfl
@[simp] theorem loadIv_lat (v : Block) (s : State) : (loadIv v s).lat = s.lat := rfl
@[simp] theorem loadIv_buf (v : Block) (s : State) : (loadIv v s).buf = s.buf := rfl
@[simp] theorem loadIv_bufExp (v : Block) (s : State) : (loadIv v s).bufExp = s.bufExp := rfl
@[simp] theorem loadIv_resp (v : Block) (s : State) : (loadIv v s).resp = s.resp := rfl
@[simp] theorem loadIv_sched (v : Block) (s : State) : (loadIv v s).sched = s.sched := rfl
@[simp] theorem loadIv_draws (v : Block) (s : State) : (loadIv v s).draws = s.draws := rfl
@[simp] theorem loadIv_freed (v : Block) (s : State) : (loadIv v s).freed = s.freed := rfl
@[simp] theorem loadIv_epoch (v : Block) (s : State) : (loadIv v s).epoch = s.epoch := rfl

@[simp] theorem zeroizeState_irqen (s : State) : (zeroizeState s).irqen = s.irqen := rfl
@[simp] theorem zeroizeState_status (s : State) : (zeroizeState s).status = { s.status with keyv := false, ivv := false } := rfl
@[simp] theorem zeroizeState_cmdLast (s : State) : (zeroizeState s).cmdLast = s.cmdLast := rfl
@[simp] theorem zeroizeState_src (s : State) : (zeroizeState s).src = s.src := rfl
@[simp] theorem zeroizeState_dst (s : State) : (zeroizeState s).dst = s.dst := rfl
@[simp] theorem zeroizeState_len (s : State) : (zeroizeState s).len = s.len := rfl
@[simp] theorem zeroizeState_reslen (s : State) : (zeroizeState s).reslen = 0 := rfl
@[simp] theorem zeroizeState_iv (s : State) : (zeroizeState s).iv = 0 := rfl
@[simp] theorem zeroizeState_k (s : State) : (zeroizeState s).k = 0 := rfl
@[simp] theorem zeroizeState_rk (s : State) : (zeroizeState s).rk = zeroKeys := rfl
@[simp] theorem zeroizeState_fb (s : State) : (zeroizeState s).fb = 0 := rfl
@[simp] theorem zeroizeState_lat (s : State) : (zeroizeState s).lat = s.lat := rfl
@[simp] theorem zeroizeState_buf (s : State) : (zeroizeState s).buf = s.buf := rfl
@[simp] theorem zeroizeState_bufExp (s : State) : (zeroizeState s).bufExp = s.bufExp := rfl
@[simp] theorem zeroizeState_resp (s : State) : (zeroizeState s).resp = s.resp := rfl
@[simp] theorem zeroizeState_sched (s : State) : (zeroizeState s).sched = s.sched := rfl
@[simp] theorem zeroizeState_draws (s : State) : (zeroizeState s).draws = s.draws := rfl
@[simp] theorem zeroizeState_freed (s : State) : (zeroizeState s).freed = s.freed := rfl
@[simp] theorem zeroizeState_epoch (s : State) : (zeroizeState s).epoch = s.epoch := rfl

@[simp] theorem accept_irqen (w : Word) (s : State) : (accept w s).irqen = s.irqen := rfl
@[simp] theorem accept_status (w : Word) (s : State) : (accept w s).status = { s.status with busy := true, done := false, errcode := .success, ivgen := false } := rfl
@[simp] theorem accept_cmdLast (w : Word) (s : State) : (accept w s).cmdLast = w := rfl
@[simp] theorem accept_src (w : Word) (s : State) : (accept w s).src = s.src := rfl
@[simp] theorem accept_dst (w : Word) (s : State) : (accept w s).dst = s.dst := rfl
@[simp] theorem accept_len (w : Word) (s : State) : (accept w s).len = s.len := rfl
@[simp] theorem accept_reslen (w : Word) (s : State) : (accept w s).reslen = 0 := rfl
@[simp] theorem accept_iv (w : Word) (s : State) : (accept w s).iv = s.iv := rfl
@[simp] theorem accept_k (w : Word) (s : State) : (accept w s).k = s.k := rfl
@[simp] theorem accept_rk (w : Word) (s : State) : (accept w s).rk = s.rk := rfl
@[simp] theorem accept_fb (w : Word) (s : State) : (accept w s).fb = s.fb := rfl
@[simp] theorem accept_lat (w : Word) (s : State) : (accept w s).lat = { cmd := w, src := s.src, dst := s.dst, len := s.len } := rfl
@[simp] theorem accept_buf (w : Word) (s : State) : (accept w s).buf = s.buf := rfl
@[simp] theorem accept_bufExp (w : Word) (s : State) : (accept w s).bufExp = s.bufExp := rfl
@[simp] theorem accept_resp (w : Word) (s : State) : (accept w s).resp = s.resp := rfl
@[simp] theorem accept_sched (w : Word) (s : State) : (accept w s).sched = s.sched := rfl
@[simp] theorem accept_draws (w : Word) (s : State) : (accept w s).draws = s.draws := rfl
@[simp] theorem accept_freed (w : Word) (s : State) : (accept w s).freed = s.freed := rfl
@[simp] theorem accept_epoch (w : Word) (s : State) : (accept w s).epoch = s.epoch := rfl

@[simp] theorem answer_irqen (d : Word) (e : Bool) (s : State) : (answer d e s).irqen = s.irqen := rfl
@[simp] theorem answer_status (d : Word) (e : Bool) (s : State) : (answer d e s).status = s.status := rfl
@[simp] theorem answer_cmdLast (d : Word) (e : Bool) (s : State) : (answer d e s).cmdLast = s.cmdLast := rfl
@[simp] theorem answer_src (d : Word) (e : Bool) (s : State) : (answer d e s).src = s.src := rfl
@[simp] theorem answer_dst (d : Word) (e : Bool) (s : State) : (answer d e s).dst = s.dst := rfl
@[simp] theorem answer_len (d : Word) (e : Bool) (s : State) : (answer d e s).len = s.len := rfl
@[simp] theorem answer_reslen (d : Word) (e : Bool) (s : State) : (answer d e s).reslen = s.reslen := rfl
@[simp] theorem answer_iv (d : Word) (e : Bool) (s : State) : (answer d e s).iv = s.iv := rfl
@[simp] theorem answer_k (d : Word) (e : Bool) (s : State) : (answer d e s).k = s.k := rfl
@[simp] theorem answer_rk (d : Word) (e : Bool) (s : State) : (answer d e s).rk = s.rk := rfl
@[simp] theorem answer_fb (d : Word) (e : Bool) (s : State) : (answer d e s).fb = s.fb := rfl
@[simp] theorem answer_lat (d : Word) (e : Bool) (s : State) : (answer d e s).lat = s.lat := rfl
@[simp] theorem answer_buf (d : Word) (e : Bool) (s : State) : (answer d e s).buf = s.buf := rfl
@[simp] theorem answer_bufExp (d : Word) (e : Bool) (s : State) : (answer d e s).bufExp = s.bufExp := rfl
@[simp] theorem answer_resp (d : Word) (e : Bool) (s : State) : (answer d e s).resp = { rdata := d, err := e } := rfl
@[simp] theorem answer_sched (d : Word) (e : Bool) (s : State) : (answer d e s).sched = s.sched := rfl
@[simp] theorem answer_draws (d : Word) (e : Bool) (s : State) : (answer d e s).draws = s.draws := rfl
@[simp] theorem answer_freed (d : Word) (e : Bool) (s : State) : (answer d e s).freed = s.freed := rfl
@[simp] theorem answer_epoch (d : Word) (e : Bool) (s : State) : (answer d e s).epoch = s.epoch := rfl

end Sys2Proof.Machine
end

