-- ==== Sys2Proof/Laws/Memory.lean ====
section
/-!
SUPPORT. The laws of BUF: a read after a write, the canonical form kept by every memory operation, the listed addresses,
and the byte strings of MemRead and MemWrite (spec 20_memory.md R44).
-/
namespace Sys2Proof.Machine

theorem Memory.read_write_same (m : Memory) (a : Nat) (v : Byte) : Memory.read (Memory.write m a v) a = some v := by
  induction m with
  | nil => simp [Memory.write, Memory.read]
  | cons c m ih =>
    unfold Memory.write
    split
    · simp [Memory.read]
    · split
      · simp [Memory.read]
      · rename_i h1 h2
        simp [Memory.read, Ne.symm h2, ih]

theorem Memory.read_write_other (m : Memory) (a b : Nat) (v : Byte) (h : b ≠ a) :
    Memory.read (Memory.write m a v) b = Memory.read m b := by
  induction m with
  | nil => simp [Memory.write, Memory.read, Ne.symm h]
  | cons c m ih =>
    unfold Memory.write
    split
    · simp [Memory.read, Ne.symm h]
    · split
      · rename_i h1 h2
        subst h2
        simp [Memory.read, Ne.symm h]
      · simp [Memory.read, ih]

/-- The addresses listed after a write are those before it and the one written. -/
theorem Memory.mem_write (m : Memory) (a : Nat) (v : Byte) (c : Host.Cell) (h : c ∈ Memory.write m a v) :
    c = (a, v) ∨ c ∈ m := by
  induction m with
  | nil => simpa [Memory.write] using h
  | cons d m ih =>
    unfold Memory.write at h
    split at h
    · simpa using h
    · split at h
      · rcases List.mem_cons.mp h with h | h
        · exact .inl h
        · exact .inr (List.mem_cons_of_mem _ h)
      · rcases List.mem_cons.mp h with h | h
        · exact .inr (h ▸ List.mem_cons_self)
        · rcases ih h with h | h
          · exact .inl h
          · exact .inr (List.mem_cons_of_mem _ h)

/-- A write keeps the canonical form. -/
theorem Memory.wf_write (m : Memory) (a : Nat) (v : Byte) (h : Memory.wf m) : Memory.wf (Memory.write m a v) := by
  induction m with
  | nil => simp [Memory.write]
  | cons c m ih =>
    obtain ⟨hc, hm⟩ := List.pairwise_cons.mp h
    unfold Memory.write
    split
    · rename_i hlt
      refine List.pairwise_cons.mpr ⟨fun x hx => ?_, h⟩
      rcases List.mem_cons.mp hx with hx | hx
      · simpa [hx] using hlt
      · exact lt_trans hlt (hc x hx)
    · split
      · rename_i h1 h2
        subst h2
        exact List.pairwise_cons.mpr ⟨hc, hm⟩
      · rename_i h1 h2
        refine List.pairwise_cons.mpr ⟨fun x hx => ?_, ih hm⟩
        rcases Memory.mem_write m a v x hx with hx | hx
        · subst hx
          show c.1 < a
          omega
        · exact hc x hx

/-- A string write keeps the canonical form. -/
theorem Memory.wf_writeAll (bs : Bytes) (m : Memory) (a : Nat) (h : Memory.wf m) :
    Memory.wf (Memory.writeAll m a bs) := by
  induction bs generalizing m a with
  | nil => exact h
  | cons b bs ih => exact ih _ _ (Memory.wf_write m a b h)

/-- The addresses listed after a string write are those before it and the ones written. -/
theorem Memory.mem_writeAll (bs : Bytes) (m : Memory) (a : Nat) (c : Host.Cell) (h : c ∈ Memory.writeAll m a bs) :
    (a ≤ c.1 ∧ c.1 < a + bs.length) ∨ c ∈ m := by
  induction bs generalizing m a with
  | nil => exact .inr h
  | cons b bs ih =>
    rcases ih _ _ h with h | h
    · left
      simp only [List.length_cons]
      omega
    · rcases Memory.mem_write m a b c h with h | h
      · left
        subst h
        simp
      · exact .inr h

/-- A string write leaves every byte outside it. -/
theorem Memory.read_writeAll_outside (bs : Bytes) (m : Memory) (a b : Nat) (h : b < a ∨ a + bs.length ≤ b) :
    Memory.read (Memory.writeAll m a bs) b = Memory.read m b := by
  induction bs generalizing m a with
  | nil => rfl
  | cons v bs ih =>
    simp only [List.length_cons] at h
    show Memory.read (Memory.writeAll (Memory.write m a v) (a + 1) bs) b = _
    rw [ih _ _ (by omega), Memory.read_write_other _ _ _ _ (by omega)]

/-- A string write puts its j-th byte at its j-th address. -/
theorem Memory.read_writeAll_inside (bs : Bytes) (m : Memory) (a j : Nat) (h : j < bs.length) :
    Memory.read (Memory.writeAll m a bs) (a + j) = some bs[j] := by
  induction bs generalizing m a j with
  | nil => simp at h
  | cons v bs ih =>
    show Memory.read (Memory.writeAll (Memory.write m a v) (a + 1) bs) (a + j) = _
    cases j with
    | zero =>
      rw [Memory.read_writeAll_outside _ _ _ _ (by omega)]
      exact Memory.read_write_same m a v
    | succ j =>
      have := ih (Memory.write m a v) (a + 1) j (by simpa using h)
      rw [show a + (j + 1) = a + 1 + j by omega, this]
      rfl

/-- Outside the written string every byte of BUF reads as before. -/
theorem byteAt_memWrite_outside (s : State) (a b : Nat) (bs : Bytes) (h : b < a ∨ a + bs.length ≤ b) :
    byteAt (memWrite s a bs) b = byteAt s b := by
  simp [byteAt, Memory.read_writeAll_outside bs s.buf a b h]

/-- Inside the written string the j-th byte reads as the j-th byte written. -/
theorem byteAt_memWrite_inside (s : State) (a j : Nat) (bs : Bytes) (h : j < bs.length) :
    byteAt (memWrite s a bs) (a + j) = bs[j] := by
  simp [byteAt, Memory.read_writeAll_inside bs s.buf a j h]

@[simp] theorem memRead_length (s : State) (a n : Nat) : (memRead s a n).length = n := by simp [memRead]

/-- MemRead of what MemWrite wrote. -/
theorem memRead_memWrite (s : State) (a : Nat) (bs : Bytes) : memRead (memWrite s a bs) a bs.length = bs := by
  apply List.ext_getElem
  · simp
  · intro j h1 h2
    simpa [memRead] using byteAt_memWrite_inside s a j bs h2

/-- The bytes of BUF depend on the memory and the reset epoch alone. -/
theorem byteAt_congr {s t : State} (hb : t.buf = s.buf) (he : t.epoch = s.epoch) (a : Nat) : byteAt t a = byteAt s a := by
  simp [byteAt, hb, he]

/-- Byte strings of BUF depend on the memory and the reset epoch alone. -/
theorem memRead_congr {s t : State} (hb : t.buf = s.buf) (he : t.epoch = s.epoch) (a n : Nat) :
    memRead t a n = memRead s a n := by
  simp [memRead, byteAt_congr hb he]

theorem wf_reset_buf : Memory.wf State.reset.buf := List.Pairwise.nil

end Sys2Proof.Machine
end

