-- ==== Sys2Proof/Laws/Modes.lean ====
section
/-!
SUPPORT. The small lemmas of blocks and segments: the first segment of a message and the rest, lengths, and the feedback
block of a segment (spec 44_mode_commands.md R145, R146).
-/
namespace Sys2Proof.Machine

@[simp] theorem blockOf_zero (m : Bytes) : blockOf m 0 = m.take 8 := by simp [blockOf]

/-- Block j + 1 is block j of what follows the first block. -/
theorem blockOf_succ (m : Bytes) (j : Nat) : blockOf m (j + 1) = blockOf (m.drop 8) j := by
  simp [blockOf, List.drop_drop, show 8 * (j + 1) = 8 + 8 * j by omega]

theorem blockOf_length (m : Bytes) (j : Nat) : (blockOf m j).length = min 8 (m.length - 8 * j) := by simp [blockOf]

@[simp] theorem feedbackBlock_zero (iv : Block) (c : Bytes) : feedbackBlock iv c 0 = bytes8 iv := rfl

@[simp] theorem feedbackBlock_succ (iv : Block) (c : Bytes) (j : Nat) : feedbackBlock iv c (j + 1) = blockOf c j := rfl

@[simp] theorem segments_nil : segments [] = [] := rfl

/-- A message that is not empty is its first segment and the segments of the rest. -/
theorem segments_cons (m : Bytes) (h : m ≠ []) : segments m = m.take 8 :: segments (m.drop 8) := by
  have hl : 0 < m.length := List.length_pos_iff.mpr h
  have hn : (m.length + 7) / 8 = ((m.drop 8).length + 7) / 8 + 1 := by simp; omega
  simp only [segments, hn, List.range_succ_eq_map, List.map_cons, List.map_map]
  congr 1
  exact List.map_congr_left fun j _ => by simpa [blockOf] using blockOf_succ m j

@[simp] theorem xorBytes_length (p ks : Bytes) : (xorBytes p ks).length = min p.length ks.length := by
  simp [xorBytes]

@[simp] theorem bytes8_length (v : Block) : (bytes8 v).length = 8 := rfl

@[simp] theorem encryptBlock_length (rk : Vector RoundKey 16) (b : Bytes) : (encryptBlock rk b).length = 8 := rfl

@[simp] theorem decryptBlock_length (rk : Vector RoundKey 16) (b : Bytes) : (decryptBlock rk b).length = 8 := rfl

end Sys2Proof.Machine
end

