-- ==== Sys2Proof/Laws/Operations.lean ====
section
/-!
SUPPORT. One lemma for each shared operation that says everything it can do: completion with a code, the scrub, the region
checks, the IV selection, the abandoned command, the engine's turn and one event of the schedule.
-/
namespace Sys2Proof.Machine

/-- Completion with a cipher OP is the code and the scrub (R27, R180). -/
theorem complete_cipher (op : BitVec 4) (code : ErrCode) (s : State) (h : isCipherOp op = true) :
    complete op code s = endCipher code s := by
  simp [complete, scrubFor, h, scrub, endCipher]

/-- Completion with any other OP is the code alone (R180). -/
theorem complete_plain (op : BitVec 4) (code : ErrCode) (s : State) (h : isCipherOp op = false) :
    complete op code s = endPlain code s := by
  simp [complete, scrubFor, h, endPlain]

/-- Whatever the OP, completion leaves IDLE with DONE and the code, and changes only key state and STATUS. -/
theorem complete_cases (op : BitVec 4) (code : ErrCode) (s : State) :
    complete op code s = endCipher code s ∨ complete op code s = endPlain code s := by
  cases h : isCipherOp op
  · exact .inr (complete_plain op code s h)
  · exact .inl (complete_cipher op code s h)

theorem inRange_iff (s : State) (r : Region) : inRange s r = true ↔ r.start + r.len ≤ s.bufBytes := by
  simp [inRange]

theorem compatible_iff (i o : Region) :
    compatible i o = true ↔
      i.start = o.start ∨ i.len = 0 ∨ o.len = 0 ∨ i.start + i.len ≤ o.start ∨ o.start + o.len ≤ i.start := by
  simp [compatible, or_assoc]

/-- The region checks of a two-region command are the conditions of R45 and R46. -/
theorem regionsOk_iff (s : State) (i o : Region) :
    regionsOk s i o = true ↔ RegionsFit s i.start i.len o.start o.len := by
  simp [regionsOk, RegionsFit, inRange_iff, compatible_iff, and_assoc]

/-- The IV selection takes the loaded IV and changes nothing, or draws once (R150). -/
theorem selectIv_cases (s : State) :
    (s.status.ivv = true ∧ selectIv s = (s.iv, s)) ∨
    (s.status.ivv = false ∧
      selectIv s = (Config.rngDraw s.draws,
        { s with
          draws := s.draws + 1, iv := Config.rngDraw s.draws
          status := { s.status with ivgen := true } })) := by
  cases h : s.status.ivv
  · right
    simp [selectIv, drawRng, h]
  · left
    simp [selectIv, h]

/-- An abandoned command changes BUF in its region and the count of free bytes, or nothing (R202). -/
theorem abandon_cases (s : State) :
    (abandonedRegion s = none ∧ abandon s = s) ∨
    (∃ r, abandonedRegion s = some r ∧
      abandon s = { s with
        buf := Memory.writeAll s.buf r.start (freeBytes s r.len), freed := s.freed + r.len }) := by
  cases h : abandonedRegion s
  · left
    simp [abandon, h]
  · right
    exact ⟨_, rfl, by simp [abandon, h, memWrite]⟩

/-- An abandoned region lies in BUF (R202). -/
theorem abandonedRegion_inRange (s : State) (r : Region) (h : abandonedRegion s = some r) :
    r.start + r.len ≤ s.bufBytes := by
  rw [← inRange_iff]
  unfold abandonedRegion at h
  split at h
  · split at h
    · exact (Option.filter_eq_some_iff.mp h).2
    · cases h
    · cases h
  · cases h

/-- The engine's turn: idle, waiting for the random source, or the completion (R16, R180, R193). -/
theorem engineTurn_cases (b : Bool) (s : State) :
    (s.status.busy = false ∧ engineTurn b s = .next s) ∨
    (s.status.busy = true ∧ b = false ∧ awaitsDraw s = true ∧ engineTurn b s = .next s) ∨
    (s.status.busy = true ∧ (b = true ∨ awaitsDraw s = false) ∧ engineTurn b s = completion s) := by
  cases hb : s.status.busy <;> cases b <;> cases ha : awaitsDraw s <;> simp [engineTurn, hb, ha]

/-- The OP field of a decoded command is that of its word, so the scrub of R180 reads the same field either way. -/
theorem isCipherOp_iff (op : BitVec 4) : isCipherOp op = true ↔ op = 3 ∨ op = 4 ∨ op = 5 ∨ op = 6 := by
  simp [isCipherOp, or_assoc]

end Sys2Proof.Machine
end

