-- ==== Sys2Proof/Laws/PerInstr.lean ====
section
/-!
SUPPORT. Statements about every command as syntax, one lemma per constructor. EncodingFields: the word of a command has its
OP, MODE and BS in the fields of spec 30_encoding.md R61 and both reserved fields 0.
-/
namespace Sys2Proof.Laws.EncodingFields

/-- The word's fields are the command's, and RSV0 and RSV1 are 0 (R61). -/
def Statement (i : Instr) : Prop :=
  wordOp (encode i) = opField i ∧ wordMode (encode i) = modeField i ∧ wordBs (encode i) = bsField i ∧
    wordRsv0 (encode i) = 0 ∧ wordRsv1 (encode i) = 0

/-- The fields of a word built from fields. -/
theorem fields_commandWord (op : BitVec 4) (mode : BitVec 2) (bs : BitVec 8) :
    wordOp (commandWord op mode bs) = op ∧ wordMode (commandWord op mode bs) = mode ∧
      wordBs (commandWord op mode bs) = bs ∧ wordRsv0 (commandWord op mode bs) = 0 ∧
      wordRsv1 (commandWord op mode bs) = 0 := by
  have key : ∀ j, (commandWord op mode bs).getLsbD j =
      ((0 : BitVec 16) ++ bs ++ (0 : BitVec 2) ++ mode ++ op : BitVec (16 + 8 + 2 + 2 + 4)).getLsbD j := fun _ => rfl
  refine ⟨?_, ?_, ?_, ?_, ?_⟩ <;>
    simp only [wordOp, wordMode, wordBs, wordRsv0, wordRsv1] <;>
    ext j hj <;>
    simp only [BitVec.getElem_extractLsb', key, BitVec.getLsbD_append] <;>
    simp only [← BitVec.getLsbD_eq_getElem]
  · simp [hj]
  · interval_cases j <;> simp
  · interval_cases j <;> simp
  · interval_cases j <;> simp
  · interval_cases j <;> simp

theorem nop : Statement .nop := fields_commandWord _ _ _
theorem keyld : Statement .keyld := fields_commandWord _ _ _
theorem ivld : Statement .ivld := fields_commandWord _ _ _
theorem encb : Statement .encb := fields_commandWord _ _ _
theorem decb : Statement .decb := fields_commandWord _ _ _
theorem ecbenc : Statement .ecbenc := fields_commandWord _ _ _
theorem cfbenc : Statement .cfbenc := fields_commandWord _ _ _
theorem ecbdec : Statement .ecbdec := fields_commandWord _ _ _
theorem cfbdec : Statement .cfbdec := fields_commandWord _ _ _
theorem pad (bs : BitVec 8) : Statement (.pad bs) := fields_commandWord _ _ _
theorem unpad (bs : BitVec 8) : Statement (.unpad bs) := fields_commandWord _ _ _
theorem zeroize : Statement .zeroize := fields_commandWord _ _ _

end Sys2Proof.Laws.EncodingFields
end

