-- ==== Sys2Proof/Tests/Slice0.lean ====
section
/-!
SUPPORT. The model's own tests, each about one step on a small state. Expected results are the vectors of spec
95_test_vectors.md (V<n>, P<n>) and the worked examples of the rules named, never the model's own output. The witness
theorems show states and operands that meet the hypotheses of each statement, clause by clause.
-/
set_option Elab.async false

namespace Sys2Proof.Machine.Tests

/-! ## Helpers -/

/-- The state an outcome goes on with. -/
def after (o : Host.Outcome State Fault Refusal) : State :=
  match o with
  | .next t => t
  | .fault _ => State.reset
  | .refused _ => State.reset

/-- The key bytes K0 of 95_test_vectors.md. -/
def keyBytes : Bytes := [0x13, 0x34, 0x57, 0x79, 0x9B, 0xBC, 0xDF, 0xF1]

/-- A running command on a buffer whose first bytes are given, with K0 loaded or not and IV0 loaded or not. -/
def running (keyv ivv : Bool) (w src dst len : Word) (bytes : Bytes) : State :=
  { State.reset with
    k := if keyv then 0x133457799BBCDFF1 else 0
    rk := if keyv then keySchedule 0x133457799BBCDFF1 else zeroKeys
    iv := 0x1234567890ABCDEF
    status := { Status.reset with busy := true, keyv := keyv, ivv := ivv }
    cmdLast := w
    lat := { cmd := w, src := src, dst := dst, len := len }
    buf := Memory.writeAll [] 0 bytes }

/-- The same engine IDLE with the last command done. -/
def idle : State := { State.reset with irqen := true, status := { Status.reset with done := true } }

/-- The five letters "hello" of V20. -/
def hello : Bytes := [0x68, 0x65, 0x6C, 0x6C, 0x6F]

/-- The plaintext of V30, "Hello, world!". -/
def helloWorld : Bytes := [0x48, 0x65, 0x6C, 0x6C, 0x6F, 0x2C, 0x20, 0x77, 0x6F, 0x72, 0x6C, 0x64, 0x21]

/-- The ciphertext of V30. -/
def helloWorldCfb : Bytes := [0x41, 0xFC, 0xD3, 0xFE, 0x84, 0x5A, 0x9A, 0x79, 0x19, 0x67, 0x48, 0x86, 0x60]

/-! ## WellFormed -/

/-- R61, R64: block size 0 is refused. -/
theorem test_wf_refuses_pad_zero : Instr.wf (.pad 0) = false := by decide
theorem test_wf_refuses_unpad_zero : Instr.wf (.unpad 0) = false := by decide
/-- R61: 255 is the largest block size. -/
theorem test_wf_admits_block_size_255 : Instr.wf (.unpad 255) = true ∧ Instr.wf .cfbdec = true := by decide

/-! ## Decoding: words written out bit by bit from R61, `RRRRRRRRRRRRRRRR bbbbbbbb rr mm oooo` -/

theorem test_decode_nop : decode 0b00000000000000000000000000000000 = .command .nop := by decide
theorem test_decode_keyld : decode 0b00000000000000000000000000000001 = .command .keyld := by decide
theorem test_decode_ivld : decode 0b00000000000000000000000000000010 = .command .ivld := by decide
theorem test_decode_encb : decode 0b00000000000000000000000000000011 = .command .encb := by decide
theorem test_decode_decb : decode 0b00000000000000000000000000000100 = .command .decb := by decide
theorem test_decode_ecbenc : decode 0b00000000000000000000000000000101 = .command .ecbenc := by decide
theorem test_decode_cfbenc : decode 0b00000000000000000000000000010101 = .command .cfbenc := by decide
theorem test_decode_ecbdec : decode 0b00000000000000000000000000000110 = .command .ecbdec := by decide
theorem test_decode_cfbdec : decode 0b00000000000000000000000000010110 = .command .cfbdec := by decide
theorem test_decode_pad_bs8 : decode 0b00000000000000000000100000000111 = .command (.pad 8) := by decide
theorem test_decode_unpad_bs255 : decode 0b00000000000000001111111100001000 = .command (.unpad 255) := by decide
theorem test_decode_zeroize : decode 0b00000000000000000000000000001001 = .command .zeroize := by decide

/-- V40: reserved fields, reserved OPs, misused BS and MODE are illegal; 0x125 is illegal because BS is tested first. -/
theorem test_decode_illegal :
    decode 0x00010005 = .illegal ∧ decode 0x00000045 = .illegal ∧ decode 0x0000002A = .illegal ∧
      decode 0x00000007 = .illegal ∧ decode 0x00000125 = .illegal ∧ decode 0x00000011 = .illegal := by decide

/-- V40: MODE 2 and 3 of OP 5 and 6. -/
theorem test_decode_unsupported :
    decode 0x00000025 = .unsupported ∧ decode 0x00000035 = .unsupported ∧ decode 0x00000026 = .unsupported := by
  decide

/-- The table's word of PAD with BS 0 is no command; with BS 1 it is. -/
theorem test_decodeTableWord :
    decodeTableWord 32 0x07 = none ∧ decodeTableWord 32 0x107 = some (.pad 1) ∧
      decodeTableWord 32 0x15 = some .cfbenc := by decide

/-! ## DES primitives, padding and modes -/

/-- R82's example. -/
theorem test_permute_ip : permute 64 (0x0123456789ABCDEF : Block) tableIP = 0xCC00CCFFF0AAF0AA := by decide +kernel

/-- V3: the S-box substitution of round 1. -/
theorem test_sboxes : sboxSubst 0x6117BA866527 = 0x5C82B597 := by decide +kernel

/-- V6: a weak key, after parity adjustment of eight zero bytes. -/
theorem test_weak_key_block :
    desBlock 0x0123456789ABCDEF (keySchedule (be64 (parityAdjust (List.replicate 8 0)))) .enc = 0x617B3A0CE8F07100 := by
  decide +kernel

/-- R114's example. -/
theorem test_parityAdjust :
    parityAdjust [0x01, 0x02, 0x03, 0x04, 0x05, 0x06, 0x07, 0x08] = [0x01, 0x02, 0x02, 0x04, 0x04, 0x07, 0x07, 0x08] := by
  decide +kernel

/-- V13: a trailer that differs, a last byte above the block size, and padding alone. -/
theorem test_unpad :
    unpadBytes [0x68, 0x65, 0x6C, 0x6C, 0x6F, 0x03, 0x02, 0x03] 8 = none ∧ unpadBytes [0x61, 0x62, 0x02] 1 = none ∧
      unpadBytes [0x08, 0x08, 0x08, 0x08, 0x08, 0x08, 0x08, 0x08] 8 = some [] := by decide +kernel

/-! ## The commands, one step each -/

/-- R113: NOP from reset gives STATUS = 0x00000002. -/
theorem test_nop_from_reset : statusWord (after (step (State.reset.withFetchWord 32 0x00))).status = 0x00000002 := by
  decide +kernel

/-- P1 after the first wait: STATUS = 6, RK[0] = 0x1B02EFFC7072. -/
theorem test_keyld :
    let t := after (step (running false false 0x01 0 0 8 keyBytes))
    t.k = 0x133457799BBCDFF1 ∧ t.rk[0] = 0x1B02EFFC7072 ∧ statusWord t.status = 0x00000006 := by decide +kernel

/-- V41: KEYLD src=4089 with a key loaded is RangeError and discards the key. -/
theorem test_keyld_range :
    let t := after (step (running true false 0x01 4089 0 8 []))
    t.k = 0 ∧ t.rk = zeroKeys ∧ statusWord t.status = 0x00000902 := by decide +kernel

/-- R111's example: the IV's bytes from address 8. -/
theorem test_ivld :
    let t := after (step (running false false 0x02 8 0 8 (keyBytes ++ [0x12, 0x34, 0x56, 0x78, 0x90, 0xAB, 0xCD, 0xEF])))
    ivHi t.iv = 0x12345678 ∧ ivLo t.iv = 0x90ABCDEF ∧ statusWord t.status = 0x0000000A := by decide +kernel

/-- V41: IVLD len=16 is InvalidIvLength, IVV cleared, IV kept. -/
theorem test_ivld_length :
    let t := after (step (running false true 0x02 0 0 16 keyBytes))
    t.iv = 0x1234567890ABCDEF ∧ statusWord t.status = 0x00000202 := by decide +kernel

/-- P1: ENCB src=0, dst=8 gives the known answer, RESLEN 8, and the key is scrubbed. -/
theorem test_encb :
    let t := after (step (running true false 0x03 0 8 8 [0x01, 0x23, 0x45, 0x67, 0x89, 0xAB, 0xCD, 0xEF]))
    memRead t 8 8 = [0x85, 0xE8, 0x13, 0x54, 0x0F, 0x0A, 0xB4, 0x05] ∧ t.reslen = 8 ∧ t.rk = zeroKeys ∧
      statusWord t.status = 0x00000002 := by decide +kernel

/-- V41: ENCB src=0, dst=4 is RangeError and scrubs. -/
theorem test_encb_overlap :
    let t := after (step (running true true 0x03 0 4 8 keyBytes))
    t.buf = Memory.writeAll [] 0 keyBytes ∧ statusWord t.status = 0x00000902 := by decide +kernel

/-- R121's example, in place. -/
theorem test_decb :
    let t := after (step (running true false 0x04 0 0 8 [0x85, 0xE8, 0x13, 0x54, 0x0F, 0x0A, 0xB4, 0x05]))
    memRead t 0 8 = [0x01, 0x23, 0x45, 0x67, 0x89, 0xAB, 0xCD, 0xEF] ∧ t.k = 0 := by decide +kernel

/-- V41: DECB checks the length before the key. -/
theorem test_decb_length : statusWord (after (step (running false false 0x04 0 8 7 []))).status = 0x00000B02 := by
  decide +kernel

/-- V20: ECBENC of "hello". -/
theorem test_ecbenc :
    let t := after (step (running true false 0x05 0 0x20 5 hello))
    memRead t 0x20 8 = [0x18, 0x0F, 0x8B, 0x04, 0x4A, 0x21, 0x1D, 0x47] ∧ t.reslen = 8 := by decide +kernel

/-- V41: ECBENC dst=4089, len=0: the output region (4089, 8) is out of range. -/
theorem test_ecbenc_range : statusWord (after (step (running true false 0x05 0 4089 0 []))).status = 0x00000902 := by
  decide +kernel

/-- V21: ECBDEC of the ciphertext of "hello", in place: the padding is not written back. -/
theorem test_ecbdec :
    let t := after (step (running true false 0x06 0 0 8 [0x18, 0x0F, 0x8B, 0x04, 0x4A, 0x21, 0x1D, 0x47]))
    memRead t 0 8 = hello ++ [0x21, 0x1D, 0x47] ∧ t.reslen = 5 := by decide +kernel

/-- P4: ECBDEC of the single byte 00 is InvalidPadding and scrubs. -/
theorem test_ecbdec_short : statusWord (after (step (running true false 0x06 0 0x40 1 [0x00]))).status = 0x00000402 := by
  decide +kernel

/-- V30: CFBENC of "Hello, world!" with IV0, and P3: the IV stays readable, IVV and IVGEN are 0. -/
theorem test_cfbenc :
    let t := after (step (running true true 0x15 0 0x20 13 helloWorld))
    memRead t 0x20 13 = helloWorldCfb ∧ t.reslen = 13 ∧ t.iv = 0x1234567890ABCDEF ∧
      statusWord t.status = 0x00000002 := by decide +kernel

/-- P6: CFBENC without an IV draws one: STATUS = 0x12; R142: also with LEN = 0. -/
theorem test_cfbenc_draws :
    let t := after (step (running true false 0x15 0 0x20 0 []))
    statusWord t.status = 0x00000012 ∧ t.draws = 1 ∧ t.reslen = 0 := by decide +kernel

/-- V30: CFBDEC gives the plaintext back. -/
theorem test_cfbdec :
    let t := after (step (running true true 0x16 0 0x30 13 helloWorldCfb))
    memRead t 0x30 13 = helloWorld ∧ t.reslen = 13 := by decide +kernel

/-- P3: without an IV CFBDEC is MissingIv, whatever IV still reads. -/
theorem test_cfbdec_missing_iv : statusWord (after (step (running true false 0x16 0 0 0 []))).status = 0x00000702 := by
  decide +kernel

/-- V12: PAD in place with block size 3. -/
theorem test_pad :
    let t := after (step (running true false 0x307 0 0 4 [0x61, 0x62, 0x63, 0x64]))
    memRead t 0 6 = [0x61, 0x62, 0x63, 0x64, 0x02, 0x02] ∧ t.reslen = 6 ∧ t.status.keyv = true := by decide +kernel

/-- V41: PAD src=0, dst=2, len=4, bs=8 overlaps its input. -/
theorem test_pad_overlap : statusWord (after (step (running false false 0x807 0 2 4 hello))).status = 0x00000902 := by
  decide +kernel

/-- R133's example. -/
theorem test_unpad_command :
    let t := after (step (running false false 0x808 0 0x40 8 (hello ++ [0x03, 0x03, 0x03])))
    memRead t 0x40 5 = hello ∧ t.reslen = 5 := by decide +kernel

/-- V41: UNPAD of nothing is InvalidPadding. -/
theorem test_unpad_empty : statusWord (after (step (running false false 0x808 0 0 0 []))).status = 0x00000402 := by
  decide +kernel

/-- R112: ZEROIZE clears the IV as well, and does not clear BUF. -/
theorem test_zeroize :
    let t := after (step (running true true 0x09 0 0 0 keyBytes))
    t.iv = 0 ∧ t.k = 0 ∧ memRead t 0 8 = keyBytes ∧ statusWord t.status = 0x00000002 := by decide +kernel

/-- V40: ZEROIZE with MODE 1 is illegal and nothing is zeroized; KEYV and IVV stay. -/
theorem test_illegal_keeps_key :
    let t := after (step (running true true 0x19 0 0 0 []))
    t.k = 0x133457799BBCDFF1 ∧ statusWord t.status = 0x0000080E := by decide +kernel

/-! ## Host transactions and reset -/

/-- P1's first write: the most significant byte at the lowest address. -/
theorem test_window_word_write :
    (transact (write32 0x10000 0x13345779) State.reset).buf = [(0, 0x13), (1, 0x34), (2, 0x57), (3, 0x79)] := by
  decide +kernel

/-- P5 (b): a CMD write while BUSY sets CMDREJ and is lost. -/
theorem test_cmd_rejected :
    let t := transact (write32 0x00C 0x03) (running false false 0x00 0 0 0 [])
    statusWord t.status = 0x00000021 ∧ t.lat.cmd = 0 ∧ t.cmdLast = 0 := by decide +kernel

/-- P7: a soft reset keeps the bytes outside the abandoned output region and frees the 16 bytes inside it. -/
theorem test_soft_reset_abandons :
    let t := transact (write32 0x004 0x02) (running true false 0x05 0 0x200 8 keyBytes)
    memRead t 0 8 = keyBytes ∧ t.freed = 16 ∧ t.rk = zeroKeys ∧ t.status = Status.reset := by decide +kernel

/-- R182: the numbers 13 to 15 are reserved and name no code. -/
theorem test_reserved_codes : codeOfBits 13 = none ∧ codeOfBits 14 = none ∧ codeOfBits 15 = none := by decide

/-- R43: a BUF access while BUSY, and R42: an 8-bit register access, are bus errors. -/
theorem test_bus_errors :
    (transact (read8 0x10000) (running false false 0 0 0 0 keyBytes)).resp = { rdata := 0, err := true } ∧
      (transact (read8 0x008) idle).resp = { rdata := 0, err := true } := by decide +kernel

/-- R186: the line is low after DONE is cleared. -/
theorem test_irq : irq idle = true ∧ irq (transact (write32 0x008 0x02) idle) = false := by decide +kernel

/-! ## Host programs and the adapter -/

/-- R68: `issue PAD` writes SRC, DST, LEN and CMD; `issue NOP` writes CMD alone. -/
theorem test_issue :
    issueOps (.pad 8) 1 2 3 =
        [.wr32 0x010 (.imm 1), .wr32 0x014 (.imm 2), .wr32 0x018 (.imm 3), .wr32 0x00C (.imm 0x807)] ∧
      issueOps .nop 1 2 3 = [.wr32 0x00C (.imm 0)] := by decide +kernel

/-- V10: the hex path after trimming, and the raw path of a 15-character text. -/
theorem test_normalize :
    normalizeText false [' ', '1', '3', '3', '4', '5', '7', '7', '9', '9', 'b', 'b', 'c', 'd', 'f', 'f', '1', '\n'] =
        keyBytes ∧
      (normalizeText true ['1', '3', '3', '4', '5', '7', '7', '9', '9', 'B', 'B', 'C', 'D', 'F', 'F']).length = 15 := by
  decide +kernel

/-- R160: overlong, surrogate, too large and truncated forms are ill-formed. -/
theorem test_utf8_ill_formed :
    utf8Decode [0xC0, 0x80] = none ∧ utf8Decode [0xED, 0xA0, 0x80] = none ∧
      utf8Decode [0xF4, 0x90, 0x80, 0x80] = none ∧ utf8Decode [0xE2, 0x82] = none := by decide +kernel

/-- R168: the mode text is matched exactly. -/
theorem test_mode_text :
    modeOfText ['E', 'C', 'B'] = none ∧ modeOfText [' ', 'e', 'c', 'b'] = none ∧
      modeOfText ['c', 'f', 'b'] = some .cfb := by decide

/-! ## Witnesses: the hypotheses of the statements are met, clause by clause -/

theorem witness_DecodeInvertsEncode : Instr.wf (.pad 1) = true ∧ Instr.wf (.unpad 255) = true ∧ Instr.wf .nop = true := by
  decide

theorem witness_DecodeAcceptsOnlyEncodings : decode 0x0000FF08 = .command (.unpad 255) := by decide

theorem witness_OpcodeMapWords :
    (1 : BitVec 8) ≠ 0 ∧ (255 : BitVec 8) ≠ 0 ∧ 0xA ≤ ((0x0000000A : Word).extractLsb' 0 4).toNat ∧
      0xA ≤ ((0xFFFFFFFF : Word).extractLsb' 0 4).toNat := by decide

theorem witness_ErrorEncodingsComplete_illegal :
    let s := running true true 0x80000000 0 0 0 []
    let u := running true true 0x00000013 0 0 0 []
    s.status.busy = true ∧ s.sched = [] ∧ IllegalWord s.lat.cmd ∧ ¬ CipherWord s.lat.cmd ∧
      u.status.busy = true ∧ u.sched = [] ∧ IllegalWord u.lat.cmd ∧ CipherWord u.lat.cmd := by decide +kernel

theorem witness_ErrorEncodingsComplete_unsupported :
    let s := running true true 0x00000036 0 0 0 []
    s.status.busy = true ∧ s.sched = [] ∧ UnsupportedWord s.lat.cmd ∧ ¬ IllegalWord s.lat.cmd := by decide +kernel

theorem witness_ErrorEncodingsComplete_command :
    let s := running true true 0x00000107 0 0 0 []
    s.status.busy = true ∧ s.sched = [] ∧ ¬ IllegalWord s.lat.cmd ∧ ¬ UnsupportedWord s.lat.cmd := by decide +kernel

theorem witness_StepRunsDecodedCommand :
    let s := running true false 0x15 0 0 0 []
    let u := { running true true 0x15 0 0 0 [] with sched := [Event.engine false, .reset] }
    (s.status.busy = true ∧ decode s.lat.cmd = .command .cfbenc ∧ s.sched = []) ∧
      (u.status.busy = true ∧ decode u.lat.cmd = .command .cfbenc ∧ u.sched = .engine false :: [.reset] ∧
        awaitsDraw u = false) := by decide +kernel

theorem witness_DrawWaitsForTheSource :
    let s := { running true false 0x15 4096 4096 0 [] with sched := [Event.engine false] }
    let u := { running true false 0x15 4096 4096 0 [] with sched := [Event.engine true] }
    s.status.busy = true ∧ s.lat.cmd = 0x00000015 ∧
      RegionsFit s s.lat.src.toNat s.lat.len.toNat s.lat.dst.toNat s.lat.len.toNat ∧ s.status.keyv = true ∧
      s.status.ivv = false ∧ s.sched = .engine false :: [] ∧ u.sched = .engine true :: [] := by decide +kernel

theorem witness_OnlyCfbencDraws : ∃ t, exec .cfbenc (running true false 0x15 0 0 0 []) = .next t ∧ t.draws = 1 :=
  ⟨_, rfl, by decide +kernel⟩

theorem witness_IdleEngineDoesNothing :
    idle.status.busy = false ∧ idle.sched = [] ∧
      ({ idle with sched := [Event.engine false] } : State).sched = .engine false :: [] := by decide

theorem witness_CompletionEndsTheCommand :
    (running false false 0xFFFFFFFF 0 0 0 []).status.busy = true ∧ (running false false 0xFFFFFFFF 0 0 0 []).sched = [] := by
  decide +kernel

theorem witness_StepKeepsSizeAndSchedule :
    step { idle with sched := [.engine true, .reset] } = .next { idle with sched := [.reset] } := rfl

theorem witness_KeyldLoadsTheKey_range :
    let s := running true false 0x01 4089 0 8 []
    s.bufBytes < s.lat.src.toNat + s.lat.len.toNat := by decide +kernel

theorem witness_KeyldLoadsTheKey_length :
    let s := running true false 0x01 4087 0 9 []
    s.lat.src.toNat + s.lat.len.toNat ≤ s.bufBytes ∧ s.lat.len.toNat ≠ 8 := by decide +kernel

theorem witness_KeyldLoadsTheKey_success :
    let s := running true false 0x01 4088 0 8 []
    s.lat.src.toNat + s.lat.len.toNat ≤ s.bufBytes ∧ s.lat.len.toNat = 8 := by decide +kernel

theorem witness_IvldLoadsTheIv_range :
    let s := running false true 0x02 0xFFFFFFFF 0 8 []
    s.bufBytes < s.lat.src.toNat + s.lat.len.toNat := by decide +kernel

theorem witness_IvldLoadsTheIv_length :
    let s := running false true 0x02 4096 0 0 []
    s.lat.src.toNat + s.lat.len.toNat ≤ s.bufBytes ∧ s.lat.len.toNat ≠ 8 := by decide +kernel

theorem witness_IvldLoadsTheIv_success :
    let s := running false true 0x02 0 0 8 []
    s.lat.src.toNat + s.lat.len.toNat ≤ s.bufBytes ∧ s.lat.len.toNat = 8 := by decide +kernel

/-- For ENCB and DECB alike: BlockRule reads only the operands, KEYV and the buffer size. -/
theorem witness_BlockRule_range :
    let s := running true false 0x03 0 7 8 []
    ¬ RegionsFit s s.lat.src.toNat s.lat.len.toNat s.lat.dst.toNat s.lat.len.toNat := by decide +kernel

theorem witness_BlockRule_length :
    let s := running true false 0x04 0 8 7 []
    RegionsFit s s.lat.src.toNat s.lat.len.toNat s.lat.dst.toNat s.lat.len.toNat ∧ s.lat.len.toNat ≠ 8 := by
  decide +kernel

theorem witness_BlockRule_no_key :
    let s := running false false 0x03 0 8 8 []
    RegionsFit s s.lat.src.toNat s.lat.len.toNat s.lat.dst.toNat s.lat.len.toNat ∧ s.lat.len.toNat = 8 ∧
      s.status.keyv = false := by decide +kernel

theorem witness_BlockRule_success :
    let s := running true false 0x03 4080 4088 8 []
    RegionsFit s s.lat.src.toNat s.lat.len.toNat s.lat.dst.toNat s.lat.len.toNat ∧ s.lat.len.toNat = 8 ∧
      s.status.keyv = true := by decide +kernel

theorem witness_PadAppendsPadding_range :
    let s := running false false 0x807 0 4089 7 []
    (8 : BitVec 8) ≠ 0 ∧
      ¬ RegionsFit s s.lat.src.toNat s.lat.len.toNat s.lat.dst.toNat (s.lat.len.toNat + (8 - s.lat.len.toNat % 8)) := by
  decide +kernel

theorem witness_PadAppendsPadding_success :
    let s := running false false 0xFF07 3841 3841 0 []
    (255 : BitVec 8) ≠ 0 ∧
      RegionsFit s s.lat.src.toNat s.lat.len.toNat s.lat.dst.toNat
        (s.lat.len.toNat + ((255 : BitVec 8).toNat - s.lat.len.toNat % (255 : BitVec 8).toNat)) := by decide +kernel

theorem witness_UnpadRemovesPadding_range :
    let s := running false false 0x108 4096 0 1 []
    (1 : BitVec 8) ≠ 0 ∧ ¬ RegionsFit s s.lat.src.toNat s.lat.len.toNat s.lat.dst.toNat s.lat.len.toNat := by
  decide +kernel

theorem witness_UnpadRemovesPadding_invalid :
    let s := running false false 0x808 0 0x40 1 [0x00]
    (8 : BitVec 8) ≠ 0 ∧ RegionsFit s s.lat.src.toNat s.lat.len.toNat s.lat.dst.toNat s.lat.len.toNat ∧
      unpadBytes (memRead s s.lat.src.toNat s.lat.len.toNat) (8 : BitVec 8).toNat = none := by decide +kernel

theorem witness_UnpadRemovesPadding_success :
    let s := running false false 0x108 0 0 1 [0x01]
    (1 : BitVec 8) ≠ 0 ∧ RegionsFit s s.lat.src.toNat s.lat.len.toNat s.lat.dst.toNat s.lat.len.toNat ∧
      unpadBytes (memRead s s.lat.src.toNat s.lat.len.toNat) (1 : BitVec 8).toNat = some [] := by decide +kernel

theorem witness_EcbencEncryptsTheMessage_range :
    let s := running true false 0x05 0 0 4096 []
    ¬ RegionsFit s s.lat.src.toNat s.lat.len.toNat s.lat.dst.toNat (s.lat.len.toNat + (8 - s.lat.len.toNat % 8)) := by
  decide +kernel

theorem witness_EcbencEncryptsTheMessage_key :
    let s := running false false 0x05 0 4 4 []
    let u := running true false 0x05 0 4088 0 []
    (RegionsFit s s.lat.src.toNat s.lat.len.toNat s.lat.dst.toNat (s.lat.len.toNat + (8 - s.lat.len.toNat % 8)) ∧
      s.status.keyv = false) ∧
    (RegionsFit u u.lat.src.toNat u.lat.len.toNat u.lat.dst.toNat (u.lat.len.toNat + (8 - u.lat.len.toNat % 8)) ∧
      u.status.keyv = true) := by decide +kernel

theorem witness_EcbdecDecryptsTheMessage_range :
    let s := running true false 0x06 0 4089 8 []
    ¬ RegionsFit s s.lat.src.toNat s.lat.len.toNat s.lat.dst.toNat s.lat.len.toNat := by decide +kernel

theorem witness_EcbdecDecryptsTheMessage_no_key :
    let s := running false false 0x06 0 0 1 []
    RegionsFit s s.lat.src.toNat s.lat.len.toNat s.lat.dst.toNat s.lat.len.toNat ∧ s.status.keyv = false := by
  decide +kernel

theorem witness_EcbdecDecryptsTheMessage_invalid :
    let s := running true false 0x06 0 0 1 [0x00]
    RegionsFit s s.lat.src.toNat s.lat.len.toNat s.lat.dst.toNat s.lat.len.toNat ∧ s.status.keyv = true ∧
      ecbDecrypt s.rk (memRead s s.lat.src.toNat s.lat.len.toNat) = none := by decide +kernel

/-- V21: the ciphertext of padding alone. -/
theorem witness_EcbdecDecryptsTheMessage_success :
    let s := running true false 0x06 0 0 8 [0xFD, 0xF2, 0xE1, 0x74, 0x49, 0x29, 0x22, 0xF8]
    RegionsFit s s.lat.src.toNat s.lat.len.toNat s.lat.dst.toNat s.lat.len.toNat ∧ s.status.keyv = true ∧
      ecbDecrypt s.rk (memRead s s.lat.src.toNat s.lat.len.toNat) = some [] := by decide +kernel

/-- The four clauses of CFBENC, and with them the first two of CFBDEC, which read the same operands. -/
theorem witness_CfbencEncryptsTheMessage :
    let s := running true true 0x15 0 1 2 []
    let n := running false true 0x15 0 2 2 []
    let l := running true true 0x15 4096 4096 0 []
    let d := running true false 0x15 4096 0 0 []
    ¬ RegionsFit s s.lat.src.toNat s.lat.len.toNat s.lat.dst.toNat s.lat.len.toNat ∧
    (RegionsFit n n.lat.src.toNat n.lat.len.toNat n.lat.dst.toNat n.lat.len.toNat ∧ n.status.keyv = false) ∧
    (RegionsFit l l.lat.src.toNat l.lat.len.toNat l.lat.dst.toNat l.lat.len.toNat ∧ l.status.keyv = true ∧
      l.status.ivv = true) ∧
    (RegionsFit d d.lat.src.toNat d.lat.len.toNat d.lat.dst.toNat d.lat.len.toNat ∧ d.status.keyv = true ∧
      d.status.ivv = false) := by decide +kernel

theorem witness_CfbdecDecryptsTheMessage :
    let s := running true true 0x16 1 0 4096 []
    let n := running false false 0x16 0 0 0 []
    let m := running true false 0x16 0 0 0 []
    let l := running true true 0x16 0 0 4096 []
    ¬ RegionsFit s s.lat.src.toNat s.lat.len.toNat s.lat.dst.toNat s.lat.len.toNat ∧
    (RegionsFit n n.lat.src.toNat n.lat.len.toNat n.lat.dst.toNat n.lat.len.toNat ∧ n.status.keyv = false) ∧
    (RegionsFit m m.lat.src.toNat m.lat.len.toNat m.lat.dst.toNat m.lat.len.toNat ∧ m.status.keyv = true ∧
      m.status.ivv = false) ∧
    (RegionsFit l l.lat.src.toNat l.lat.len.toNat l.lat.dst.toNat l.lat.len.toNat ∧ l.status.keyv = true ∧
      l.status.ivv = true) := by decide +kernel

/-- CommandFrame: an answer exists, and addresses outside the output region exist below and above it. -/
theorem witness_CommandFrame :
    (∃ t, exec .encb (running true false 0x03 0 8 8 []) = .next t) ∧
      outputRegion .encb (running true false 0x03 0 8 8 []).lat = some { start := 8, len := 8 } ∧
      (7 < 8 ∧ 8 + 8 ≤ 16) :=
  ⟨⟨_, rfl⟩, by decide +kernel, by decide⟩

theorem witness_CipherCommandsScrub :
    let s := running true true 0x00000046 0 0 0 []
    let u := running true true 0x00000003 0 0 0 []
    s.status.busy = true ∧ s.sched = [] ∧ CipherWord s.lat.cmd ∧ CipherWord u.lat.cmd := by decide +kernel

theorem witness_ErrorsLeaveNoOutput :
    let s := running true true 0x00000001 0 0 7 keyBytes
    s.status.busy = true ∧ s.sched = [] ∧ s.reslen = 0 ∧ s.status.ivgen = false ∧
      ∃ t, step s = .next t ∧ t.status.errcode ≠ .success :=
  ⟨rfl, rfl, rfl, rfl, _, rfl, by decide +kernel⟩

/-- ErrorsLeaveNoOutput: a word with no scrub that is neither KEYLD nor IVLD, and ends in an error. -/
theorem witness_ErrorsLeaveNoOutput_plain :
    let s := running true true 0x00000808 0 0 0 []
    ¬ CipherWord s.lat.cmd ∧ s.lat.cmd ≠ 0x00000001 ∧ s.lat.cmd ≠ 0x00000002 ∧
      ∃ t, step s = .next t ∧ t.status.errcode ≠ .success :=
  ⟨by decide +kernel, by decide +kernel, by decide +kernel, _, rfl, by decide +kernel⟩

theorem witness_RunningCommandIgnoresOperandWrites :
    ∃ t, (running true false 0x03 0 8 8 keyBytes).status.busy = true ∧ (running true false 0x03 0 8 8 keyBytes).sched = [] ∧
      step (running true false 0x03 0 8 8 keyBytes) = .next t :=
  ⟨_, rfl, rfl, rfl⟩

theorem witness_PermuteSelectsBits :
    (∀ x ∈ tableE, 1 ≤ x ∧ x ≤ 32) ∧ 1 ≤ 48 ∧ 48 ≤ tableE.length := by decide

theorem witness_KeyScheduleIgnoresParityBits :
    ∀ j, j < 64 → j % 8 ≠ 0 → (0x0101010101010101 : Block).getLsbD j = false := by decide +kernel

theorem witness_ParityAdjustMakesOddBytes :
    keyBytes.length = 8 ∧ popcount (0x80 : Byte) % 2 = 1 ∧ popcount (0x03 : Byte) % 2 = 0 := by decide +kernel

theorem witness_DecryptionInvertsEncryption : keyBytes.length = 8 := by decide

/-- The block sizes at both ends, and a multiple of the block size above the length. -/
theorem witness_PadReachesNextMultiple : 1 ≤ 1 ∧ 1 ≤ 255 ∧ 255 ≤ 255 ∧ hello.length < 255 ∧ 255 % 255 = 0 := by decide

theorem witness_UnpadInvertsPad : 1 ≤ 1 ∧ 1 ≤ 255 ∧ 1 ≤ 255 ∧ 255 ≤ 255 := by decide

/-- V13's first row: both sides of the equivalence, and the ends of the block size. -/
theorem witness_UnpadAcceptsExactlyPaddedStrings :
    unpadBytes (hello ++ [0x03, 0x03, 0x03]) 8 = some hello ∧ hello ++ [0x03, 0x03, 0x03] = padBytes hello 8 ∧ 1 ≤ 1 ∧
      255 ≤ 255 := by decide +kernel

/-- The first and the last block of a padded message of two; a ciphertext of each kind of length. -/
theorem witness_EcbRoundTrip :
    8 * 0 < (padBytes keyBytes 8).length ∧ 8 * 1 < (padBytes keyBytes 8).length ∧ ([] : Bytes).length = 0 ∧
      ([0x00] : Bytes).length % 8 ≠ 0 ∧ keyBytes.length ≠ 0 ∧ keyBytes.length % 8 = 0 := by decide +kernel

/-- V30: the first byte, the last of the first segment, the first of the second, and the last of a short segment. -/
theorem witness_CfbCiphertextGrowsWithTheMessage :
    0 < helloWorld.length ∧ 7 < helloWorld.length ∧ 8 < helloWorld.length ∧ 12 < helloWorld.length := by decide

theorem witness_ReadsHaveNoSideEffect : (read32 0x10000).write = false := by decide

theorem witness_BusErrorsChangeNothing :
    IsBusError (read8 0x00000) idle ∧ IsBusError (read32 0x0FFFE) idle ∧ IsBusError (read32 0x10002) idle ∧
      IsBusError (read8 0x1FFFF) (running false false 0 0 0 0 []) ∧ ¬ IsBusError (read8 0x10003) idle ∧
      (write32 0x00C 0).write = true := by decide +kernel

theorem witness_ReservedOffsetsReadZero :
    (0x028 ≤ (0x00028 : BitVec 17).toNat ∧ (0x00028 : BitVec 17).toNat ≤ 0x0FFFF ∧ (0x00028 : BitVec 17).toNat % 4 = 0) ∧
      (0x028 ≤ (0x0FFFC : BitVec 17).toNat ∧ (0x0FFFC : BitVec 17).toNat ≤ 0x0FFFF ∧
        (0x0FFFC : BitVec 17).toNat % 4 = 0) := by decide

theorem witness_CmdWriteAcceptsOrRejects :
    (running false false 0 0 0 0 []).status.busy = true ∧ idle.status.busy = false := by decide +kernel

theorem witness_CtrlEnablesAndResets : (0x00000001 : Word).getLsbD 1 = false ∧ (0x00000003 : Word).getLsbD 1 = true := by
  decide

theorem witness_WindowMovesBytesBigEndian :
    idle.status.busy = false ∧ 0 < idle.bufBytes ∧ 0 % 4 = 0 ∧ 4092 < idle.bufBytes ∧ 4092 % 4 = 0 ∧
      4095 < idle.bufBytes := by decide +kernel

theorem witness_WindowPastTheBufferReadsZero :
    idle.status.busy = false ∧ idle.bufBytes ≤ 4096 ∧ 4096 < 0x10000 ∧ 4096 % 4 = 0 ∧ idle.bufBytes ≤ 65535 ∧
      65535 < 0x10000 := by decide +kernel

theorem witness_InterruptIsALevel :
    (∃ t, (running false false 0 0 0 0 []).status.busy = true ∧ (running false false 0 0 0 0 []).sched = [] ∧
      step (running false false 0 0 0 0 []) = .next t) ∧
      (0x00000002 : Word).getLsbD 1 = true ∧ idle.status.busy = false :=
  ⟨⟨_, rfl, rfl, rfl⟩, by decide, by decide⟩

theorem witness_OrderOfHostAndCompletion :
    let s := running false false 0 0 0 0 []
    s.status.busy = true ∧
      ({ s with sched := [Event.host (write32 0x00C 0)] } : State).sched = .host (write32 0x00C 0) :: [] ∧
      ({ s with sched := [Event.host (write32 0x008 2)] } : State).sched = [.host (write32 0x008 2)] ∧
      ({ s with sched := [Event.engine true, .host (write32 0x00C 0)] } : State).sched =
        [.engine true, .host (write32 0x00C 0)] := by decide +kernel

/-- The clauses of SoftResetKeepsTheBuffer: IDLE; a running word that is no command; a running command with its region in
range, its first and last byte; a running command with its region one byte out of range, and one without a region. -/
theorem witness_SoftResetKeepsTheBuffer :
    let s := running true false 0x05 0 4080 8 []
    let u := running true false 0x0A 0 0 0 []
    let o := running true false 0x05 0 4081 8 []
    (0x00000002 : Word).getLsbD 1 = true ∧ idle.status.busy = false ∧ decode u.lat.cmd = .illegal ∧
      (s.status.busy = true ∧ decode s.lat.cmd = .command .ecbenc ∧
        outputRegion .ecbenc s.lat = some { start := 4080, len := 16 } ∧ 4080 + 16 ≤ s.bufBytes ∧ 0 < 16 ∧ 15 < 16) ∧
      (outputRegion .ecbenc o.lat = some { start := 4081, len := 16 } ∧ o.bufBytes < 4081 + 16) ∧
      outputRegion .keyld o.lat = none := by decide +kernel

theorem witness_HardResetDrawsTheBufferAnew : ({ idle with sched := [Event.reset] } : State).sched = .reset :: [] := by
  decide

/-- StepKeepsTheInvariant: a running command with a loaded key meets the invariant, and its step answers. -/
theorem witness_StepKeepsTheInvariant :
    let s := running true true 0x15 0 0x20 13 helloWorld
    s.Inv ∧ ∃ t, step s = .next t := by
  refine ⟨⟨?_, ?_, ?_, ?_, ?_, ?_, ?_, ?_, ?_, ?_, ?_⟩, _, rfl⟩ <;> decide +kernel

/-- TextCodecsRoundTrip: a text that decodes with letters of both cases, an odd one, one with another character, and a byte
string that decodes (R160, R162). -/
theorem witness_TextCodecsRoundTrip :
    hexDecode ['a', 'F'] = some [0xAF] ∧ ['0', 'f', '0'].length % 2 = 1 ∧ 'g' ∈ ['0', 'g'] ∧
      utf8Decode [0xC3, 0xA9] = some [Char.ofNat 0xE9] := by decide +kernel

/-- AdapterLeavesNoKey: an IDLE engine after a command, with no key loaded. -/
theorem witness_AdapterLeavesNoKey : idle.Inv ∧ idle.status.busy = false ∧ idle.status.keyv = false := by
  refine ⟨⟨?_, ?_, ?_, ?_, ?_, ?_, ?_, ?_, ?_, ?_, ?_⟩, ?_, ?_⟩ <;> decide +kernel

/-- What an encryption returned, without the state it leaves. -/
def replyOf (o : Host.Outcome (State × Reply (Text × Option Text)) Fault Refusal) : Option (Text × Option Text) :=
  match o with
  | .next (_, .ok r) => some r
  | .next (_, .err _) => none
  | .fault _ => none
  | .refused _ => none

/-- A reply comes from a next state. -/
theorem replyOf_some {o : Host.Outcome (State × Reply (Text × Option Text)) Fault Refusal} {r : Text × Option Text}
    (h : replyOf o = some r) : ∃ t, o = .next (t, .ok r) := by
  unfold replyOf at h
  split at h
  · rename_i t r'
    exact ⟨t, by cases h; rfl⟩
  · cases h
  · cases h
  · cases h

/-- AdapterRoundTrip: an encryption that answers; the ciphertext is V50's for the empty text. -/
theorem witness_AdapterRoundTrip :
    idle.status.busy = false ∧
      ∃ t, encryptText true [] ['A', 'B', 'C', 'D', 'E', 'F', 'G', 'H'] ['c', 'f', 'b']
        (some ['1', '2', '3', '4', '5', '6', '7', '8', '9', '0', 'A', 'B', 'C', 'D', 'E', 'F']) idle =
        .next (t, .ok ([], some ['1', '2', '3', '4', '5', '6', '7', '8', '9', '0', 'a', 'b', 'c', 'd', 'e', 'f'])) :=
  ⟨rfl, replyOf_some (by decide +kernel)⟩

end Sys2Proof.Machine.Tests
end

section
/-!
The frame of a step. A command ends in one completion over a state that differs from the old one in the command's own
fields alone; a host transaction and the resets keep the model's own fields; and a step is the oldest event of the schedule
(spec 00_scope.md R6; 60_exceptions.md R180, R187).
-/
namespace Sys2Proof.Machine

/-! ### What a command can do -/

/-- `t` differs from `s` at most in the fields that a command may write: STATUS but for CMDREJ, RESLEN, IV, the key state,
BUF and the count of draws (R30). -/
def OnlyCommandFields (s t : State) : Prop :=
  t = { s with
    status := { t.status with cmdrej := s.status.cmdrej }
    reslen := t.reslen, iv := t.iv, k := t.k, rk := t.rk, fb := t.fb, buf := t.buf, draws := t.draws }

theorem OnlyCommandFields.refl (s : State) : OnlyCommandFields s s := rfl

theorem OnlyCommandFields.trans {s t u : State} (hst : OnlyCommandFields s t) (htu : OnlyCommandFields t u) :
    OnlyCommandFields s u := by
  unfold OnlyCommandFields at hst htu ⊢
  rw [htu, hst]

theorem OnlyCommandFields.bufExp_eq {s t : State} (h : OnlyCommandFields s t) : t.bufExp = s.bufExp := by
  unfold OnlyCommandFields at h
  rw [h]

theorem OnlyCommandFields.sched_eq {s t : State} (h : OnlyCommandFields s t) : t.sched = s.sched := by
  unfold OnlyCommandFields at h
  rw [h]

theorem onlyCommandFields_writeOutput (out : Bytes) (s : State) : OnlyCommandFields s (writeOutput out s) := rfl

theorem onlyCommandFields_setFeedback (v : Block) (s : State) : OnlyCommandFields s (setFeedback v s) := rfl

theorem onlyCommandFields_selectIv (s : State) : OnlyCommandFields s (selectIv s).2 := by
  obtain ⟨-, h⟩ | ⟨-, h⟩ := selectIv_cases s <;> rw [h] <;> rfl

theorem onlyCommandFields_complete (op : BitVec 4) (code : ErrCode) (s : State) :
    OnlyCommandFields s (complete op code s) := by
  obtain h | h := complete_cases op code s <;> rw [h] <;> rfl

/-- `t` is the completion with one of the engine's codes, after writes to the command's own fields (R180, R182). -/
def CompletesFrom (op : BitVec 4) (s t : State) : Prop :=
  ∃ code u, isEngineCode code = true ∧ OnlyCommandFields s u ∧ t = complete op code u

theorem CompletesFrom.onlyCommandFields {op : BitVec 4} {s t : State} (h : CompletesFrom op s t) :
    OnlyCommandFields s t := by
  obtain ⟨code, u, -, hu, rfl⟩ := h
  exact hu.trans (onlyCommandFields_complete op code u)

theorem completesFrom_error (op : BitVec 4) (code : ErrCode) (s : State) (h : isEngineCode code = true) :
    CompletesFrom op s (complete op code s) := ⟨code, s, h, rfl, rfl⟩

theorem completesFrom_success (op : BitVec 4) {s u : State} (h : OnlyCommandFields s u) (out : Bytes) :
    CompletesFrom op s (complete op .success (writeOutput out u)) :=
  ⟨.success, _, rfl, h.trans (onlyCommandFields_writeOutput out u), rfl⟩

theorem completesFrom_runBlock (op : BitVec 4) (f : Vector RoundKey 16 → Bytes → Bytes) (s : State) :
    CompletesFrom op s (runBlock op f s) := by
  unfold runBlock
  split_ifs
  · exact completesFrom_error _ _ _ rfl
  · exact completesFrom_error _ _ _ rfl
  · exact completesFrom_error _ _ _ rfl
  · exact completesFrom_success _ (.refl s) _

/-- Every command answers with one completion over its own writes (R180). -/
theorem exec_completes (i : Instr) (s : State) : ∃ t, exec i s = .next t ∧ CompletesFrom (opField i) s t := by
  cases i <;> refine ⟨_, rfl, ?_⟩
  case nop => exact ⟨.success, setReslen 0 s, rfl, rfl, rfl⟩
  case zeroize => exact ⟨.success, zeroizeState s, rfl, rfl, rfl⟩
  case keyld =>
    split_ifs
    · exact ⟨_, failKey s, rfl, rfl, rfl⟩
    · exact ⟨_, failKey s, rfl, rfl, rfl⟩
    · exact ⟨_, loadKey _ s, rfl, rfl, rfl⟩
  case ivld =>
    split_ifs
    · exact ⟨_, failIv s, rfl, rfl, rfl⟩
    · exact ⟨_, failIv s, rfl, rfl, rfl⟩
    · exact ⟨_, loadIv _ s, rfl, rfl, rfl⟩
  case encb => exact completesFrom_runBlock _ _ _
  case decb => exact completesFrom_runBlock _ _ _
  case ecbenc =>
    split_ifs
    · exact completesFrom_error _ _ _ rfl
    · exact completesFrom_error _ _ _ rfl
    · exact completesFrom_success _ (.refl s) _
  case cfbenc =>
    split_ifs
    · exact completesFrom_error _ _ _ rfl
    · exact completesFrom_error _ _ _ rfl
    · exact completesFrom_success _ ((onlyCommandFields_selectIv s).trans (onlyCommandFields_setFeedback _ _)) _
  case ecbdec =>
    split_ifs
    · exact completesFrom_error _ _ _ rfl
    · exact completesFrom_error _ _ _ rfl
    · split
      · exact completesFrom_error _ _ _ rfl
      · exact completesFrom_success _ (.refl s) _
  case cfbdec =>
    split_ifs
    · exact completesFrom_error _ _ _ rfl
    · exact completesFrom_error _ _ _ rfl
    · exact completesFrom_error _ _ _ rfl
    · exact completesFrom_success _ (onlyCommandFields_setFeedback _ s) _
  case pad bs =>
    split_ifs
    · exact completesFrom_error _ _ _ rfl
    · exact completesFrom_error _ _ _ rfl
    · exact completesFrom_success _ (.refl s) _
  case unpad bs =>
    split_ifs
    · exact completesFrom_error _ _ _ rfl
    · exact completesFrom_error _ _ _ rfl
    · split
      · exact completesFrom_error _ _ _ rfl
      · exact completesFrom_success _ (.refl s) _

/-- The completion step of the accepted word, a command or not, always answers (R65, R180). -/
theorem completion_completes (s : State) : ∃ op t, completion s = .next t ∧ CompletesFrom op s t := by
  unfold completion
  split
  · rename_i i _
    exact ⟨opField i, exec_completes i s⟩
  · exact ⟨_, _, rfl, completesFrom_error _ _ _ rfl⟩
  · exact ⟨_, _, rfl, completesFrom_error _ _ _ rfl⟩

theorem engineTurn_onlyCommandFields (b : Bool) {s t : State} (h : engineTurn b s = .next t) :
    OnlyCommandFields s t := by
  obtain ⟨-, ht⟩ | ⟨-, -, -, ht⟩ | ⟨-, -, ht⟩ := engineTurn_cases b s <;> rw [ht] at h
  · cases h; rfl
  · cases h; rfl
  · obtain ⟨op, u, hu, hc⟩ := completion_completes s
    cases hu.symm.trans h
    exact hc.onlyCommandFields

/-! ### What a host transaction and a reset keep -/

/-- `t` has the buffer size and the schedule of `s` (R6, R187). -/
def SameSizeAndSchedule (s t : State) : Prop := t.bufExp = s.bufExp ∧ t.sched = s.sched

theorem sameSizeAndSchedule_writeReg (r : Reg) (v : Word) (s : State) : SameSizeAndSchedule s (writeReg r v s) := by
  cases r
  case ctrl =>
    simp only [writeReg, writeCtrl]
    split_ifs <;> exact ⟨rfl, rfl⟩
  case cmd =>
    simp only [writeReg, writeCmd]
    split_ifs <;> exact ⟨rfl, rfl⟩
  all_goals exact ⟨rfl, rfl⟩

@[simp] theorem writeWindowByte_bufExp (a : Nat) (v : Byte) (s : State) :
    (writeWindowByte a v s).bufExp = s.bufExp := by
  unfold writeWindowByte; split_ifs <;> rfl

@[simp] theorem writeWindowByte_sched (a : Nat) (v : Byte) (s : State) :
    (writeWindowByte a v s).sched = s.sched := by
  unfold writeWindowByte; split_ifs <;> rfl

/-- A register transaction answers over the old state, or over one register write; a bus error is over the old state
(R41, R42). -/
theorem regTransaction_cases (t : Tx) (s : State) :
    ∃ d e u, regTransaction t s = answer d e u ∧
      (u = s ∨ (t.write = true ∧ e = false ∧ ∃ r, regAt t.offset.toNat = some r ∧ u = writeReg r t.wdata s)) := by
  unfold regTransaction
  split
  · split
    · rename_i r hr hw
      exact ⟨_, _, _, rfl, .inr ⟨hw, rfl, r, hr, rfl⟩⟩
    · exact ⟨_, _, s, rfl, .inl rfl⟩
    · exact ⟨_, _, s, rfl, .inl rfl⟩
  · exact ⟨_, _, s, rfl, .inl rfl⟩

/-- A window transaction answers over the old state, or over one write through the window of an IDLE engine; a bus error
is over the old state (R41, R43). -/
theorem bufTransaction_cases (t : Tx) (a : Nat) (s : State) :
    ∃ d e u, bufTransaction t a s = answer d e u ∧
      (u = s ∨ (t.write = true ∧ e = false ∧ s.status.busy = false ∧
        (u = writeWindowByte a (t.wdata.extractLsb' 0 8) s ∨ u = writeWindowWord a t.wdata s))) := by
  unfold bufTransaction
  split
  · exact ⟨_, _, s, rfl, .inl rfl⟩
  · rename_i hb
    have hidle : s.status.busy = false := by simpa using hb
    split
    · rename_i hw
      exact ⟨_, _, _, rfl, .inr ⟨hw, rfl, hidle, .inl rfl⟩⟩
    · exact ⟨_, _, s, rfl, .inl rfl⟩
    · exact ⟨_, _, s, rfl, .inl rfl⟩
    · rename_i hw
      split
      · exact ⟨_, _, _, rfl, .inr ⟨hw, rfl, hidle, .inr rfl⟩⟩
      · exact ⟨_, _, s, rfl, .inl rfl⟩
    · split
      · exact ⟨_, _, s, rfl, .inl rfl⟩
      · exact ⟨_, _, s, rfl, .inl rfl⟩

theorem sameSizeAndSchedule_regTransaction (t : Tx) (s : State) : SameSizeAndSchedule s (regTransaction t s) := by
  obtain ⟨d, e, u, hu, rfl | ⟨-, -, r, -, rfl⟩⟩ := regTransaction_cases t s <;> rw [hu]
  · exact ⟨rfl, rfl⟩
  · exact sameSizeAndSchedule_writeReg r t.wdata s

theorem sameSizeAndSchedule_bufTransaction (t : Tx) (a : Nat) (s : State) :
    SameSizeAndSchedule s (bufTransaction t a s) := by
  obtain ⟨d, e, u, hu, rfl | ⟨-, -, -, rfl | rfl⟩⟩ := bufTransaction_cases t a s <;> rw [hu]
  · exact ⟨rfl, rfl⟩
  · exact ⟨by simp, by simp⟩
  · exact ⟨by simp [writeWindowWord], by simp [writeWindowWord]⟩

theorem sameSizeAndSchedule_transact (t : Tx) (s : State) : SameSizeAndSchedule s (transact t s) := by
  unfold transact
  split
  · exact sameSizeAndSchedule_regTransaction t s
  · exact sameSizeAndSchedule_bufTransaction t _ s

/-! ### The step as the oldest event -/

theorem step_of_sched_nil {s : State} (h : s.sched = []) : step s = engineTurn true s := by
  simp [step, nextEvent, h]

theorem step_of_sched_host {s : State} {t : Tx} {rest : List Event} (h : s.sched = .host t :: rest) :
    step s = .next (transact t { s with sched := rest }) := by
  simp [step, nextEvent, h]

theorem step_of_sched_engine {s : State} {b : Bool} {rest : List Event} (h : s.sched = .engine b :: rest) :
    step s = engineTurn b { s with sched := rest } := by
  simp [step, nextEvent, h]

theorem step_of_sched_reset {s : State} {rest : List Event} (h : s.sched = .reset :: rest) :
    step s = .next (hardReset { s with sched := rest }) := by
  simp [step, nextEvent, h]

/-- Settles O11, by the schedule's oldest event: each acts on the state with that event already taken off, and keeps the
buffer size and the rest of the schedule. -/
theorem stepKeepsSizeAndSchedule : Obligations.StepKeepsSizeAndSchedule := by
  intro s t h
  match hs : s.sched with
  | [] =>
    rw [step_of_sched_nil hs] at h
    have ht := engineTurn_onlyCommandFields true h
    exact ⟨ht.bufExp_eq, ht.sched_eq.trans hs⟩
  | .host tx :: rest =>
    rw [step_of_sched_host hs] at h
    cases h
    exact sameSizeAndSchedule_transact tx { s with sched := rest }
  | .engine b :: rest =>
    rw [step_of_sched_engine hs] at h
    have ht := engineTurn_onlyCommandFields b h
    exact ⟨ht.bufExp_eq, ht.sched_eq⟩
  | .reset :: rest =>
    rw [step_of_sched_reset hs] at h
    cases h
    exact ⟨rfl, rfl⟩

end Sys2Proof.Machine
end

section
/-!
What a decoded word says: a word that decodes to a command carries that command's fields, so it is that command's own word
(spec 30_encoding.md R61, R63, R64).
-/
namespace Sys2Proof.Machine

/-- A word whose reserved fields are 0 is the word of its three other fields (R61). -/
theorem commandWord_of_fields {w : Word} (h0 : wordRsv0 w = 0) (h1 : wordRsv1 w = 0) :
    commandWord (wordOp w) (wordMode w) (wordBs w) = w := by
  have hw : wordRsv1 w ++ wordBs w ++ wordRsv0 w ++ wordMode w ++ wordOp w = w := by
    simp only [wordRsv1, wordBs, wordRsv0, wordMode, wordOp]
    rw [BitVec.extractLsb'_append_extractLsb'_eq_extractLsb' (by decide),
      BitVec.extractLsb'_append_extractLsb'_eq_extractLsb' (by decide),
      BitVec.extractLsb'_append_extractLsb'_eq_extractLsb' (by decide),
      BitVec.extractLsb'_append_extractLsb'_eq_extractLsb' (by decide)]
    simp
  rwa [h0, h1] at hw

/-- The table of R63 gives a command for that command's OP alone, and for its MODE and BS where the tests of R64 on those
two fields have passed. -/
theorem commandOf_fields {op : BitVec 4} {mode : BitVec 2} {bs : BitVec 8} {i : Instr}
    (hbs : isPadOp op = false → bs = 0) (hmode : isModeOp op = true → mode ≠ 2 ∧ mode ≠ 3)
    (hplain : isModeOp op = false → mode = 0) (h : commandOf op mode bs = .command i) :
    op = opField i ∧ mode = modeField i ∧ bs = bsField i := by
  have hop : op = opField i := by
    unfold commandOf at h
    split at h <;> cases h <;> exact BitVec.eq_of_toNat_eq ‹op.toNat = _›
  subst hop
  cases i
  case pad | unpad => cases h; exact ⟨rfl, hplain rfl, rfl⟩
  case ecbenc | cfbenc | ecbdec | cfbdec =>
    obtain rfl := hbs rfl
    refine ⟨rfl, ?_, rfl⟩
    clear hbs
    revert mode
    decide
  all_goals exact ⟨rfl, hplain rfl, hbs rfl⟩

/-- A word that decodes to a command has its reserved fields 0 and the command's own OP, MODE and BS (R64). -/
theorem decode_command_fields {w : Word} {i : Instr} (h : decode w = .command i) :
    (wordRsv1 w = 0 ∧ wordRsv0 w = 0) ∧ wordOp w = opField i ∧ wordMode w = modeField i ∧ wordBs w = bsField i := by
  simp only [decode] at h
  split_ifs at h with hrsv _ _ hbs hmode hplain
  refine ⟨by simpa using hrsv, commandOf_fields (fun hp => ?_) (fun hm => ?_) (fun hm => ?_) h⟩
  · simpa [hp] using hbs
  · simpa [hm] using hmode
  · simpa [hm] using hplain

/-- A word that decodes to a command is that command's word (R63, R64). -/
theorem encode_of_decode {w : Word} {i : Instr} (h : decode w = .command i) : encode i = w := by
  obtain ⟨⟨h1, h0⟩, hop, hmode, hbs⟩ := decode_command_fields h
  rw [encode, ← hop, ← hmode, ← hbs, commandWord_of_fields h0 h1]
end Sys2Proof.Machine
end

section
/-!
How long the outputs are: the modes and the padding unit on byte strings (spec 43_padding_commands.md R130, R131;
44_mode_commands.md R145, R146).
-/
namespace Sys2Proof.Machine

/-- The segments of a message make up the message (R146). -/
theorem segments_flatten (m : Bytes) : (segments m).flatten = m := by
  by_cases h : m = []
  · simp [h]
  · rw [segments_cons m h, List.flatten_cons, segments_flatten (m.drop 8), List.take_append_drop]
termination_by m.length
decreasing_by
  have := List.length_pos_iff.mpr h
  simp only [List.length_drop]
  omega

theorem segments_length (m : Bytes) : (segments m).length = (m.length + 7) / 8 := by simp [segments]

theorem length_le_of_mem_segments {m p : Bytes} (h : p ∈ segments m) : p.length ≤ 8 := by
  simp only [segments, List.mem_map] at h
  obtain ⟨j, -, rfl⟩ := h
  simp

/-- A function that gives one block for each segment gives eight bytes for each. -/
theorem flatMap_segments_length {f : Bytes → Bytes} (hf : ∀ b, (f b).length = 8) (m : Bytes) :
    ((segments m).flatMap f).length = 8 * ((m.length + 7) / 8) := by
  simp [List.length_flatMap, hf, segments_length, Nat.mul_comm]

@[simp] theorem padBytes_length (d : Bytes) (bs : Nat) : (padBytes d bs).length = paddedLen d.length bs := by
  simp [padBytes, padTail, paddedLen]

theorem unpadBytes_length_le {d out : Bytes} {bs : Nat} (h : unpadBytes d bs = some out) :
    out.length ≤ d.length := by
  simp only [unpadBytes] at h
  split_ifs at h
  cases h
  simp

@[simp] theorem ecbEncrypt_length (rk : Vector RoundKey 16) (d : Bytes) :
    (ecbEncrypt rk d).length = paddedLen d.length 8 := by
  simp only [ecbEncrypt, flatMap_segments_length (encryptBlock_length rk), padBytes_length, paddedLen, padCount]
  omega

theorem ecbDecrypt_length_le {rk : Vector RoundKey 16} {c out : Bytes} (h : ecbDecrypt rk c = some out) :
    out.length ≤ c.length := by
  unfold ecbDecrypt at h
  split_ifs at h with hc
  have hout := unpadBytes_length_le h
  rw [flatMap_segments_length (decryptBlock_length rk)] at hout
  omega

theorem cfbEncryptSegs_length (rk : Vector RoundKey 16) (ps : List Bytes) (fb : Block)
    (h : ∀ p ∈ ps, p.length ≤ 8) : (cfbEncryptSegs rk ps fb).1.length = ps.flatten.length := by
  induction ps generalizing fb with
  | nil => rfl
  | cons p ps ih =>
    obtain ⟨hp, hps⟩ := List.forall_mem_cons.mp h
    simp [cfbEncryptSegs, ih _ hps, hp]

theorem cfbDecryptSegs_length (rk : Vector RoundKey 16) (cs : List Bytes) (fb : Block)
    (h : ∀ c ∈ cs, c.length ≤ 8) : (cfbDecryptSegs rk cs fb).1.length = cs.flatten.length := by
  induction cs generalizing fb with
  | nil => rfl
  | cons c cs ih =>
    obtain ⟨hc, hcs⟩ := List.forall_mem_cons.mp h
    simp [cfbDecryptSegs, ih _ hcs, hc]

/-- CFB encryption keeps the length (R146). -/
@[simp] theorem cfbEncrypt_length (rk : Vector RoundKey 16) (p : Bytes) (iv : Block) :
    (cfbEncrypt rk p iv).1.length = p.length := by
  rw [cfbEncrypt, cfbEncryptSegs_length _ _ _ fun _ => length_le_of_mem_segments, segments_flatten]

/-- CFB decryption keeps the length (R146). -/
@[simp] theorem cfbDecrypt_length (rk : Vector RoundKey 16) (c : Bytes) (iv : Block) :
    (cfbDecrypt rk c iv).1.length = c.length := by
  rw [cfbDecrypt, cfbDecryptSegs_length _ _ _ fun _ => length_le_of_mem_segments, segments_flatten]

end Sys2Proof.Machine
end

section
/-!
What a command can do, said once: the writes it makes before its completion, one constructor for each kind of end (spec
41_key_iv_commands.md to 44_mode_commands.md; 60_exceptions.md R180, R184).
-/
namespace Sys2Proof.Machine

/-- What a command has changed before it writes its output: nothing, or in CFB the feedback register and the selected IV. -/
inductive BeforeOutput (s : State) : Instr → State → Prop where
  | unchanged (i : Instr) : BeforeOutput s i s
  | feedback (v : Block) : BeforeOutput s .cfbdec (setFeedback v s)
  | selected (v : Block) : BeforeOutput s .cfbenc (setFeedback v (selectIv s).2)

/-- The writes of a command before its completion with a code: on an error only what KEYLD and IVLD discard (R184), on a
success the command's own registers, or its output inside the region of its range check. -/
inductive CommandWrites (s : State) : Instr → ErrCode → State → Prop where
  | error {i : Instr} {code : ErrCode} (engine : isEngineCode code = true) (fails : code ≠ .success) :
      CommandWrites s i code s
  | keyError {code : ErrCode} (engine : isEngineCode code = true) (fails : code ≠ .success) :
      CommandWrites s .keyld code (failKey s)
  | ivError {code : ErrCode} (engine : isEngineCode code = true) (fails : code ≠ .success) :
      CommandWrites s .ivld code (failIv s)
  | nop : CommandWrites s .nop .success (setReslen 0 s)
  | keyLoaded : CommandWrites s .keyld .success (loadKey (be64 (parityAdjust (memRead s s.lat.src.toNat 8))) s)
  | ivLoaded (v : Block) : CommandWrites s .ivld .success (loadIv v s)
  | zeroized : CommandWrites s .zeroize .success (zeroizeState s)
  | output {i : Instr} {r : Region} {out : Bytes} {u : State} (region : outputRegion i s.lat = some r)
      (fits : inRange s r = true) (short : out.length ≤ r.len) (before : BeforeOutput s i u) :
      CommandWrites s i .success (writeOutput out u)

theorem inRange_of_regionsOk {s : State} {i o : Region} (h : ¬ regionsOk s i o = false) : inRange s o = true := by
  simp only [Bool.not_eq_false] at h
  exact (inRange_iff s o).mpr ((regionsOk_iff s i o).mp h).2.1

theorem outputRegion_start {i : Instr} {l : Latch} {r : Region} (h : outputRegion i l = some r) :
    r.start = l.dst.toNat := by
  cases i
  case pad | unpad =>
    simp only [outputRegion] at h
    split_ifs at h
    cases h
    rfl
  all_goals cases h <;> rfl

@[simp] theorem inputBytes_length (s : State) : (inputBytes s).length = s.lat.len.toNat := memRead_length _ _ _

/-- The command's completion with a code over its own writes (R180). -/
def CommandEnds (s : State) (i : Instr) (t : State) : Prop :=
  ∃ code u, CommandWrites s i code u ∧ t = complete (opField i) code u

theorem CommandWrites.ends {s u : State} {i : Instr} {code : ErrCode} (h : CommandWrites s i code u) :
    CommandEnds s i (complete (opField i) code u) := ⟨code, u, h, rfl⟩

theorem ends_error {s : State} {i : Instr} {code : ErrCode} (engine : isEngineCode code = true)
    (fails : code ≠ .success) : CommandEnds s i (complete (opField i) code s) :=
  (CommandWrites.error engine fails).ends

/-- A single-block command ends with an error, or writes one block into the region (LAT.DST, 8) (R120). -/
theorem runBlock_ends {i : Instr} {f : Vector RoundKey 16 → Bytes → Bytes} (s : State)
    (hr : outputRegion i s.lat = some (sameRegion s.lat)) (hf : ∀ rk b, (f rk b).length = 8) :
    CommandEnds s i (runBlock (opField i) f s) := by
  unfold runBlock
  split_ifs with hfit hlen
  · exact ends_error rfl nofun
  · exact ends_error rfl nofun
  · exact ends_error rfl nofun
  · refine CommandWrites.ends (.output hr (inRange_of_regionsOk hfit) ?_ (.unchanged i))
    have h8 : s.lat.len = 8 := not_not.mp hlen
    simp [hf, sameRegion, h8]

/-- Every command is the completion with a code over its own writes (R180). -/
theorem exec_ends (i : Instr) (s : State) :
    ∃ t, exec i s = .next t ∧ CommandEnds s i t := by
  cases i <;> refine ⟨_, rfl, ?_⟩
  case nop => exact CommandWrites.ends .nop
  case zeroize => exact CommandWrites.ends .zeroized
  case keyld =>
    split_ifs
    · exact CommandWrites.ends (.keyError rfl nofun)
    · exact CommandWrites.ends (.keyError rfl nofun)
    · exact CommandWrites.ends .keyLoaded
  case ivld =>
    split_ifs
    · exact CommandWrites.ends (.ivError rfl nofun)
    · exact CommandWrites.ends (.ivError rfl nofun)
    · exact CommandWrites.ends (.ivLoaded _)
  case encb => exact runBlock_ends s rfl encryptBlock_length
  case decb => exact runBlock_ends s rfl decryptBlock_length
  case ecbenc =>
    split_ifs with hfit
    · exact ends_error rfl nofun
    · exact ends_error rfl nofun
    · exact CommandWrites.ends (.output rfl (inRange_of_regionsOk hfit) (by simp [paddedRegion]) (.unchanged _))
  case cfbenc =>
    split_ifs with hfit
    · exact ends_error rfl nofun
    · exact ends_error rfl nofun
    · exact CommandWrites.ends (.output rfl (inRange_of_regionsOk hfit) (by simp [sameRegion]) (.selected _))
  case ecbdec =>
    split_ifs with hfit
    · exact ends_error rfl nofun
    · exact ends_error rfl nofun
    · split
      · exact ends_error rfl nofun
      · next out hout =>
        refine CommandWrites.ends (.output rfl (inRange_of_regionsOk hfit) ?_ (.unchanged _))
        simpa [sameRegion] using ecbDecrypt_length_le hout
  case cfbdec =>
    split_ifs with hfit
    · exact ends_error rfl nofun
    · exact ends_error rfl nofun
    · exact ends_error rfl nofun
    · exact CommandWrites.ends (.output rfl (inRange_of_regionsOk hfit) (by simp [sameRegion]) (.feedback _))
  case pad bs =>
    split_ifs with hbs hfit
    · exact ends_error rfl nofun
    · exact ends_error rfl nofun
    · exact CommandWrites.ends (.output (if_neg hbs) (inRange_of_regionsOk hfit) (by simp [paddedRegion]) (.unchanged _))
  case unpad bs =>
    split_ifs with hbs hfit
    · exact ends_error rfl nofun
    · exact ends_error rfl nofun
    · split
      · exact ends_error rfl nofun
      · next out hout =>
        refine CommandWrites.ends (.output (if_neg hbs) (inRange_of_regionsOk hfit) ?_ (.unchanged _))
        simpa [sameRegion] using unpadBytes_length_le hout

theorem ends_of_exec {i : Instr} {s t : State} (h : exec i s = .next t) : CommandEnds s i t := by
  obtain ⟨u, hu, he⟩ := exec_ends i s
  cases hu.symm.trans h
  exact he

end Sys2Proof.Machine
end

section
/-!
What persists across a command (spec 10_state.md R16, R27, R30): each field is followed from the command's writes through
its completion.
-/
namespace Sys2Proof.Machine

/-! ### The completion, field by field -/

section
variable (op : BitVec 4) (code : ErrCode) (s : State)

@[simp] theorem complete_cmdLast : (complete op code s).cmdLast = s.cmdLast := by
  obtain h | h := complete_cases op code s <;> rw [h] <;> rfl
@[simp] theorem complete_reslen : (complete op code s).reslen = s.reslen := by
  obtain h | h := complete_cases op code s <;> rw [h] <;> rfl
@[simp] theorem complete_iv : (complete op code s).iv = s.iv := by
  obtain h | h := complete_cases op code s <;> rw [h] <;> rfl
@[simp] theorem complete_lat : (complete op code s).lat = s.lat := by
  obtain h | h := complete_cases op code s <;> rw [h] <;> rfl
@[simp] theorem complete_buf : (complete op code s).buf = s.buf := by
  obtain h | h := complete_cases op code s <;> rw [h] <;> rfl
@[simp] theorem complete_bufExp : (complete op code s).bufExp = s.bufExp := by
  obtain h | h := complete_cases op code s <;> rw [h] <;> rfl
@[simp] theorem complete_draws : (complete op code s).draws = s.draws := by
  obtain h | h := complete_cases op code s <;> rw [h] <;> rfl
@[simp] theorem complete_epoch : (complete op code s).epoch = s.epoch := by
  obtain h | h := complete_cases op code s <;> rw [h] <;> rfl
@[simp] theorem complete_busy : (complete op code s).status.busy = false := by
  obtain h | h := complete_cases op code s <;> rw [h] <;> rfl
@[simp] theorem complete_done : (complete op code s).status.done = true := by
  obtain h | h := complete_cases op code s <;> rw [h] <;> rfl
@[simp] theorem complete_errcode : (complete op code s).status.errcode = code := by
  obtain h | h := complete_cases op code s <;> rw [h] <;> rfl
@[simp] theorem complete_ivgen : (complete op code s).status.ivgen = s.status.ivgen := by
  obtain h | h := complete_cases op code s <;> rw [h] <;> rfl

end

/-! ### What a command's writes leave -/

theorem OnlyCommandFields.lat_eq {s t : State} (h : OnlyCommandFields s t) : t.lat = s.lat := by
  unfold OnlyCommandFields at h
  rw [h]

theorem OnlyCommandFields.cmdLast_eq {s t : State} (h : OnlyCommandFields s t) : t.cmdLast = s.cmdLast := by
  unfold OnlyCommandFields at h
  rw [h]

theorem OnlyCommandFields.epoch_eq {s t : State} (h : OnlyCommandFields s t) : t.epoch = s.epoch := by
  unfold OnlyCommandFields at h
  rw [h]

/-- The fields that no command writes (R30). -/
theorem OnlyCommandFields.frame {s t : State} (h : OnlyCommandFields s t) :
    t.irqen = s.irqen ∧ t.status.cmdrej = s.status.cmdrej ∧ t.src = s.src ∧ t.dst = s.dst ∧ t.len = s.len ∧
      t.cmdLast = s.cmdLast ∧ t.lat = s.lat ∧ t.bufExp = s.bufExp ∧ t.resp = s.resp ∧ t.sched = s.sched ∧
      t.freed = s.freed ∧ t.epoch = s.epoch := by
  unfold OnlyCommandFields at h
  rw [h]
  exact ⟨rfl, rfl, rfl, rfl, rfl, rfl, rfl, rfl, rfl, rfl, rfl, rfl⟩

section
variable {s u : State} {i : Instr} {code : ErrCode}

theorem BeforeOutput.onlyCommandFields (h : BeforeOutput s i u) : OnlyCommandFields s u := by
  cases h
  case unchanged => rfl
  case feedback v => exact onlyCommandFields_setFeedback v s
  case selected v => exact (onlyCommandFields_selectIv s).trans (onlyCommandFields_setFeedback v _)

theorem selectIv_buf (s : State) : (selectIv s).2.buf = s.buf := by
  obtain ⟨-, h⟩ | ⟨-, h⟩ := selectIv_cases s <;> rw [h]

theorem BeforeOutput.buf_eq (h : BeforeOutput s i u) : u.buf = s.buf := by
  cases h
  case unchanged => rfl
  case feedback => rfl
  case selected => exact selectIv_buf s

theorem CommandWrites.onlyCommandFields (h : CommandWrites s i code u) : OnlyCommandFields s u := by
  cases h with
  | output _ _ _ hb => exact hb.onlyCommandFields.trans (onlyCommandFields_writeOutput _ _)
  | _ => rfl

/-- A command writes BUF in its output region alone, and there at most the region's length (R47). -/
theorem CommandWrites.buf_cases (h : CommandWrites s i code u) :
    u.buf = s.buf ∨ ∃ r out, outputRegion i s.lat = some r ∧ inRange s r = true ∧ out.length ≤ r.len ∧
      u.buf = Memory.writeAll s.buf r.start out := by
  cases h with
  | output hr hfit hlen hb =>
    refine .inr ⟨_, _, hr, hfit, hlen, ?_⟩
    simp [writeOutput, hb.buf_eq, hb.onlyCommandFields.lat_eq, outputRegion_start hr]
  | _ => exact .inl rfl

/-- A command draws no value and keeps IVGEN, and IV too unless it loads or clears it; or it is a CFBENC without a loaded IV
that draws once into IV (R16, R150). -/
theorem CommandWrites.iv_cases (h : CommandWrites s i code u) :
    (u.draws = s.draws ∧ u.status.ivgen = s.status.ivgen ∧ (i ≠ .ivld → i ≠ .zeroize → u.iv = s.iv)) ∨
    (i = .cfbenc ∧ code = .success ∧ s.status.ivv = false ∧ u.draws = s.draws + 1 ∧
      u.iv = Config.rngDraw s.draws ∧ u.status.ivgen = true) := by
  cases h with
  | ivLoaded => exact .inl ⟨rfl, rfl, fun h => absurd rfl h⟩
  | zeroized => exact .inl ⟨rfl, rfl, fun _ h => absurd rfl h⟩
  | output _ _ _ hb =>
    cases hb with
    | selected =>
      obtain ⟨-, h⟩ | ⟨hivv, h⟩ := selectIv_cases s
      · exact .inl (by simp [writeOutput, h])
      · exact .inr (by simp [writeOutput, h, hivv])
    | _ => exact .inl ⟨rfl, rfl, fun _ _ => rfl⟩
  | _ => exact .inl ⟨rfl, rfl, fun _ _ => rfl⟩

end

/-- Settles O7, by the kinds of writes: only the IV selection draws. -/
theorem onlyCfbencDraws : Obligations.OnlyCfbencDraws := by
  intro i s t h
  obtain ⟨code, u, hw, rfl⟩ := ends_of_exec h
  obtain ⟨hd, -, -⟩ | ⟨hi, -, hivv, hd, hiv, hgen⟩ := hw.iv_cases
  · exact .inl (by simpa using hd)
  · exact .inr ⟨hi, hivv, by simpa using hd, by simpa using hiv, by simpa using hgen⟩

/-! ### The key state -/

/-- The commands that leave the key state alone: NOP, IVLD, PAD and UNPAD (R30). -/
theorem CommandWrites.keepsKey {s u : State} {i : Instr} {code : ErrCode} (h : CommandWrites s i code u)
    (hi : i = .nop ∨ i = .ivld ∨ (∃ b, i = .pad b) ∨ (∃ b, i = .unpad b)) :
    u.k = s.k ∧ u.rk = s.rk ∧ u.fb = s.fb ∧ u.status.keyv = s.status.keyv := by
  cases h with
  | keyError | keyLoaded | zeroized => simp at hi
  | output _ _ _ hb =>
    cases hb with
    | feedback | selected => simp at hi
    | unchanged => exact ⟨rfl, rfl, rfl, rfl⟩
  | _ => exact ⟨rfl, rfl, rfl, rfl⟩

/-- The commands that leave IVV alone: NOP, KEYLD, PAD and UNPAD (R30). -/
theorem CommandWrites.keepsIvv {s u : State} {i : Instr} {code : ErrCode} (h : CommandWrites s i code u)
    (hi : i = .nop ∨ i = .keyld ∨ (∃ b, i = .pad b) ∨ (∃ b, i = .unpad b)) : u.status.ivv = s.status.ivv := by
  cases h with
  | ivError | ivLoaded | zeroized => simp at hi
  | output _ _ _ hb =>
    cases hb with
    | selected => simp at hi
    | feedback | unchanged => rfl
  | _ => rfl

/-- The commands outside OP 3 to 6, but for ZEROIZE (R63). -/
theorem isCipherOp_false_of_keeps {i : Instr}
    (hi : i = .nop ∨ i = .keyld ∨ i = .ivld ∨ (∃ b, i = .pad b) ∨ (∃ b, i = .unpad b)) :
    isCipherOp (opField i) = false := by
  obtain rfl | rfl | rfl | ⟨b, rfl⟩ | ⟨b, rfl⟩ := hi <;> rfl

theorem byteAt_complete (op : BitVec 4) (code : ErrCode) (s : State) (a : Nat) :
    byteAt (complete op code s) a = byteAt s a := byteAt_congr (by simp) (by simp) a

/-- Every byte of BUF outside a command's output region reads as before (R30). -/
theorem CommandWrites.byteAt_outside {s u : State} {i : Instr} {code : ErrCode} (h : CommandWrites s i code u) {a : Nat}
    (ha : ∀ r, outputRegion i s.lat = some r → a < r.start ∨ r.start + r.len ≤ a) : byteAt u a = byteAt s a := by
  have he := h.onlyCommandFields.epoch_eq
  obtain hbuf | ⟨r, out, hr, -, hlen, hbuf⟩ := h.buf_cases
  · exact byteAt_congr hbuf he a
  · have hout : a < r.start ∨ r.start + out.length ≤ a := (ha r hr).imp_right (by omega)
    exact (byteAt_congr (s := memWrite s r.start out) hbuf he a).trans (byteAt_memWrite_outside s r.start a out hout)

/-- Settles O24: the fields no command writes by the frame of its writes, the others by the kind of command. -/
theorem commandFrame : Obligations.CommandFrame := by
  intro i s t h
  obtain ⟨code, u, hw, rfl⟩ := ends_of_exec h
  have hframe := hw.onlyCommandFields.trans (onlyCommandFields_complete (opField i) code u)
  refine ⟨hframe.frame, fun a ha => ?_, fun h1 h2 h3 => ?_, fun hi => ?_, fun hi => ?_, fun hi => ?_⟩
  · rw [byteAt_complete, hw.byteAt_outside ha]
  · obtain ⟨-, -, hiv⟩ | ⟨hi, -, hivv, -⟩ := hw.iv_cases
    · rw [complete_iv, hiv h1 h2]
    · exact absurd ⟨hi, hivv⟩ h3
  · rw [complete_plain _ _ _ (isCipherOp_false_of_keeps (by tauto))]
    exact hw.keepsKey hi
  · rw [complete_plain _ _ _ (isCipherOp_false_of_keeps (by tauto))]
    exact hw.keepsIvv hi
  · obtain ⟨-, hgen, -⟩ | ⟨hcfb, -⟩ := hw.iv_cases
    · rw [complete_ivgen, hgen]
    · exact absurd hcfb hi

/-! ### The scrub -/

/-- The engine's turn in BUSY is the completion when the source answers (R180). -/
theorem engineTurn_true_of_busy {s : State} (hb : s.status.busy = true) : engineTurn true s = completion s := by
  simp [engineTurn, hb]

/-- The step of a BUSY engine with nothing scheduled is the completion of the latched word (R212). -/
theorem step_of_busy {s : State} (hb : s.status.busy = true) (hs : s.sched = []) : step s = completion s := by
  rw [step_of_sched_nil hs, engineTurn_true_of_busy hb]

/-- A command with OP 3 to 6 neither loads nor clears IV. -/
theorem ne_ivld_zeroize_of_isCipherOp {i : Instr} (h : isCipherOp (opField i) = true) : i ≠ .ivld ∧ i ≠ .zeroize := by
  constructor <;> rintro rfl <;> cases h

/-- Settles O25: the completion scrubs by the OP of the latched word, which is that of the command it decodes to. -/
theorem cipherCommandsScrub : Obligations.CipherCommandsScrub := by
  intro s hb hs hc
  have hop : isCipherOp (wordOp s.lat.cmd) = true := (isCipherOp_iff _).mpr hc
  rw [step_of_busy hb hs, completion]
  split
  · next i hi =>
    obtain ⟨-, hfield, -⟩ := decode_command_fields hi
    rw [hfield] at hop
    obtain ⟨t, ht, code, u, hw, rfl⟩ := exec_ends i s
    obtain ⟨hne1, hne2⟩ := ne_ivld_zeroize_of_isCipherOp hop
    rw [complete_cipher _ _ _ hop] at ht
    refine ⟨_, ht, rfl, rfl, rfl, rfl, rfl, ?_⟩
    obtain ⟨-, -, hiv⟩ | ⟨-, -, -, -, hiv, hgen⟩ := hw.iv_cases
    · exact .inl (hiv hne1 hne2)
    · exact .inr ⟨hgen, hiv⟩
  · exact ⟨_, congrArg _ (complete_cipher _ _ _ hop), rfl, rfl, rfl, rfl, rfl, .inl rfl⟩
  · exact ⟨_, congrArg _ (complete_cipher _ _ _ hop), rfl, rfl, rfl, rfl, rfl, .inl rfl⟩

end Sys2Proof.Machine
end

section
/-!
Bytes of a 64-bit value and the parity of key bytes (spec 20_memory.md R48; 41_key_iv_commands.md R114).
-/
namespace Sys2Proof.Machine

/-- The bytes of the value of an 8-byte string are that string (R48). -/
theorem bytes8_be64 {bs : Bytes} (h : bs.length = 8) : bytes8 (be64 bs) = bs := by
  match bs, h with
  | [b0, b1, b2, b3, b4, b5, b6, b7], _ =>
    simp only [bytes8, be64, bytesToNat, List.foldl_cons, List.foldl_nil, List.cons.injEq, and_true]
    refine ⟨?_, ?_, ?_, ?_, ?_, ?_, ?_, ?_⟩ <;> apply BitVec.eq_of_toNat_eq <;>
      simp only [BitVec.extractLsb'_toNat, BitVec.toNat_ofNat, Nat.shiftRight_eq_div_pow] <;> omega

theorem oddByte_odd (b : Byte) : popcount (oddByte b) % 2 = 1 := by
  revert b; decide

/-- A byte of odd parity is not adjusted (R114). -/
theorem oddByte_of_odd {b : Byte} (h : popcount b % 2 = 1) : oddByte b = b := if_pos h

@[simp] theorem parityAdjust_length (bs : Bytes) : (parityAdjust bs).length = bs.length := List.length_map _

/-- The adjustment is idempotent (R114). -/
theorem parityAdjust_parityAdjust (bs : Bytes) : parityAdjust (parityAdjust bs) = parityAdjust bs := by
  simp [parityAdjust, oddByte_of_odd (oddByte_odd _)]

end Sys2Proof.Machine
end

section
/-!
The invariant of the engine: it holds at reset, and every event of the schedule keeps it (spec 10_state.md R20 to R28;
20_memory.md R40, R51; 60_exceptions.md R182, R184).
-/
namespace Sys2Proof.Machine

/-! ### BUF -/

/-- The part of the invariant about BUF: the canonical form, in range (R40). -/
def BufOk (s : State) : Prop := Memory.wf s.buf ∧ ∀ c ∈ s.buf, c.1 < s.bufBytes

theorem State.Inv.bufOk {s : State} (h : s.Inv) : BufOk s := ⟨h.bufSorted, h.bufInRange⟩

theorem bufBytes_congr {s t : State} (h : t.bufExp = s.bufExp) : t.bufBytes = s.bufBytes := by
  simp [State.bufBytes, h]

theorem bufOk_congr {s t : State} (h : BufOk s) (hb : t.buf = s.buf) (he : t.bufExp = s.bufExp) : BufOk t := by
  rw [BufOk, hb, bufBytes_congr he]
  exact h

/-- A string written in range keeps BUF canonical and in range. -/
theorem bufOk_memWrite {s : State} {a : Nat} {bs : Bytes} (h : BufOk s) (hfit : a + bs.length ≤ s.bufBytes) :
    BufOk (memWrite s a bs) := by
  refine ⟨Memory.wf_writeAll bs s.buf a h.1, fun c hc => ?_⟩
  obtain hin | hold := Memory.mem_writeAll bs s.buf a c hc
  · exact lt_of_lt_of_le hin.2 hfit
  · exact h.2 c hold

theorem bufOk_of_writes {s u : State} {i : Instr} {code : ErrCode} (hs : BufOk s) (h : CommandWrites s i code u) :
    BufOk u := by
  have he := h.onlyCommandFields.bufExp_eq
  obtain hb | ⟨r, out, -, hfit, hlen, hb⟩ := h.buf_cases
  · exact bufOk_congr hs hb he
  · rw [inRange_iff] at hfit
    exact bufOk_congr (bufOk_memWrite (a := r.start) (bs := out) hs (by omega)) hb he

/-- An abandoned command leaves BUF canonical and in range (R202). -/
theorem bufOk_abandon {s : State} (h : BufOk s) : BufOk (abandon s) := by
  obtain ⟨-, ha⟩ | ⟨r, hr, ha⟩ := abandon_cases s <;> rw [ha]
  · exact h
  · have hfit := abandonedRegion_inRange s r hr
    exact bufOk_memWrite (a := r.start) (bs := freeBytes s r.len) h (by simpa [freeBytes] using hfit)

/-! ### Keys -/

/-- The part of the invariant about the key state (R23, R24). -/
def KeyOk (s : State) : Prop :=
  (s.status.keyv = false → s.k = 0 ∧ s.rk = zeroKeys) ∧
  (s.status.keyv = true → s.rk = keySchedule s.k ∧ parityAdjust (bytes8 s.k) = bytes8 s.k)

theorem State.Inv.keyOk {s : State} (h : s.Inv) : KeyOk s := ⟨h.keyAbsent, h.keyPresent⟩

theorem keyOk_congr {s t : State} (h : KeyOk s) (hk : t.k = s.k) (hrk : t.rk = s.rk)
    (hv : t.status.keyv = s.status.keyv) : KeyOk t := by
  rw [KeyOk, hk, hrk, hv]
  exact h

/-- A loaded key is the value of adjusted bytes, so its own bytes have odd parity (R110, R114). -/
theorem keyOk_loadKey (s : State) (bs : Bytes) (h : bs.length = 8) : KeyOk (loadKey (be64 (parityAdjust bs)) s) := by
  refine ⟨nofun, fun _ => ⟨rfl, ?_⟩⟩
  rw [loadKey_k, bytes8_be64 (by simpa using h), parityAdjust_parityAdjust]

theorem keyOk_selectIv {s : State} (h : KeyOk s) : KeyOk (selectIv s).2 := by
  obtain ⟨-, hsel⟩ | ⟨-, hsel⟩ := selectIv_cases s <;> rw [hsel] <;> exact h

theorem keyOk_of_beforeOutput {s u : State} {i : Instr} (hs : KeyOk s) (h : BeforeOutput s i u) : KeyOk u := by
  cases h with
  | selected => exact keyOk_selectIv hs
  | unchanged | feedback => exact hs

theorem keyOk_of_writes {s u : State} {i : Instr} {code : ErrCode} (hs : KeyOk s) (h : CommandWrites s i code u) :
    KeyOk u := by
  cases h with
  | keyError | zeroized => exact ⟨fun _ => ⟨rfl, rfl⟩, nofun⟩
  | keyLoaded => exact keyOk_loadKey s _ (memRead_length _ _ _)
  | output _ _ _ hb => exact keyOk_congr (keyOk_of_beforeOutput hs hb) rfl rfl rfl
  | error | ivError | nop | ivLoaded => exact hs

theorem keyOk_complete {s : State} (op : BitVec 4) (code : ErrCode) (h : KeyOk s) : KeyOk (complete op code s) := by
  obtain hc | hc := complete_cases op code s <;> rw [hc]
  · exact ⟨fun _ => ⟨rfl, rfl⟩, nofun⟩
  · exact h

/-! ### What a command reports -/

section
variable {s u : State} {i : Instr} {code : ErrCode}

theorem CommandWrites.isEngineCode (h : CommandWrites s i code u) : isEngineCode code = true := by
  cases h with
  | error engine | keyError engine | ivError engine => exact engine
  | _ => rfl

/-- An error leaves RESLEN and IVGEN (R184). -/
theorem CommandWrites.noOutput_of_error (h : CommandWrites s i code u) (hc : code ≠ .success) :
    u.reslen = s.reslen ∧ u.status.ivgen = s.status.ivgen := by
  cases h with
  | error | keyError | ivError => exact ⟨rfl, rfl⟩
  | _ => exact absurd rfl hc

theorem CommandWrites.reslen_le (h : CommandWrites s i code u) (hs : s.reslen.toNat ≤ s.bufBytes) :
    u.reslen.toNat ≤ s.bufBytes := by
  cases h with
  | output hr hfit hlen _ =>
    rw [inRange_iff] at hfit
    rw [writeOutput, setReslen_reslen, BitVec.toNat_ofNat]
    exact (Nat.mod_le _ _).trans (by omega)
  | error | keyError | ivError => exact hs
  | _ => exact Nat.zero_le _

/-- A command without the scrub leaves FB, or clears it (R25). -/
theorem CommandWrites.fb_of_plain (h : CommandWrites s i code u) (hi : isCipherOp (opField i) = false) :
    u.fb = s.fb ∨ u.fb = 0 := by
  cases h with
  | zeroized => exact .inr rfl
  | output _ _ _ hb =>
    cases hb with
    | unchanged => exact .inl rfl
    | feedback | selected => cases hi
  | _ => exact .inl rfl

end

/-! ### The completion -/

theorem fb_complete {s : State} {op : BitVec 4} (code : ErrCode) (h : isCipherOp op = false → s.fb = 0) :
    (complete op code s).fb = 0 := by
  cases hop : isCipherOp op
  · rw [complete_plain _ _ _ hop]
    exact h hop
  · rw [complete_cipher _ _ _ hop]
    rfl

/-- The completion of a running command keeps the invariant, with the OP of its word or of any other. -/
theorem inv_complete {s u : State} {i : Instr} {code : ErrCode} {op : BitVec 4} (hs : s.Inv)
    (hb : s.status.busy = true) (hw : CommandWrites s i code u) (hfb : isCipherOp op = false → u.fb = 0)
    (hcfb : i = .cfbenc → s.lat.cmd = encode .cfbenc) : (complete op code u).Inv := by
  obtain ⟨-, -, hgen0, hres0⟩ := hs.busyClear hb
  have hframe := hw.onlyCommandFields
  have hbuf := bufOk_congr (bufOk_of_writes hs.bufOk hw) (complete_buf op code u) (complete_bufExp op code u)
  have hkey := keyOk_complete op code (keyOk_of_writes hs.keyOk hw)
  refine { bufSorted := hbuf.1, bufInRange := hbuf.2, fbZero := fb_complete code hfb, keyAbsent := hkey.1,
           keyPresent := hkey.2, latched := ?_, busyClear := by simp, engineCode := ?_, errNoOutput := fun herr => ?_,
           reslenBound := ?_, ivgenCmd := fun hgen => ?_ }
  · rw [complete_cmdLast, complete_lat, hframe.lat_eq, hframe.cmdLast_eq, hs.latched]
  · rw [complete_errcode, hw.isEngineCode]
  · rw [complete_errcode] at herr
    obtain ⟨hres, hgen⟩ := hw.noOutput_of_error herr
    simp [hres, hgen, hres0, hgen0]
  · rw [complete_reslen, bufBytes_congr (complete_bufExp op code u), bufBytes_congr hframe.bufExp_eq]
    exact hw.reslen_le hs.reslenBound
  · rw [complete_ivgen] at hgen
    obtain ⟨-, hkeep, -⟩ | ⟨hi, hcode, -⟩ := hw.iv_cases
    · rw [hkeep, hgen0] at hgen
      cases hgen
    · rw [complete_lat, complete_errcode, hframe.lat_eq]
      exact ⟨hcfb hi, hcode⟩

/-- A word that is no command completes with an error and its own OP, and writes nothing before (R65). -/
theorem inv_complete_error {s : State} {code : ErrCode} (op : BitVec 4) (hs : s.Inv) (hb : s.status.busy = true)
    (engine : isEngineCode code = true) (fails : code ≠ .success) : (complete op code s).Inv :=
  inv_complete (i := .nop) hs hb (.error engine fails) (fun _ => hs.fbZero) nofun

theorem inv_completion {s t : State} (hs : s.Inv) (hb : s.status.busy = true) (h : completion s = .next t) :
    t.Inv := by
  unfold completion at h
  split at h
  · next i hi =>
    obtain ⟨code, u, hw, rfl⟩ := ends_of_exec h
    refine inv_complete hs hb hw (fun hop => ?_) (fun hcfb => hcfb ▸ (encode_of_decode hi).symm)
    obtain hfb | hfb := hw.fb_of_plain hop
    · rw [hfb, hs.fbZero]
    · exact hfb
  · cases h
    exact inv_complete_error _ hs hb rfl nofun
  · cases h
    exact inv_complete_error _ hs hb rfl nofun

theorem inv_engineTurn {s t : State} {b : Bool} (hs : s.Inv) (h : engineTurn b s = .next t) : t.Inv := by
  obtain ⟨-, ht⟩ | ⟨-, -, -, ht⟩ | ⟨hb, -, ht⟩ := engineTurn_cases b s <;> rw [ht] at h
  · cases h; exact hs
  · cases h; exact hs
  · exact inv_completion hs hb h

/-! ### Resets -/

/-- Every register at its reset value, with any BUF that is canonical and in range (R29). -/
theorem inv_resetRegisters {t : State} (h : BufOk t) : State.Inv
    { State.reset with
      buf := t.buf, bufExp := t.bufExp, resp := t.resp, sched := t.sched, draws := t.draws, freed := t.freed,
      epoch := t.epoch } where
  bufSorted := h.1
  bufInRange := h.2
  fbZero := rfl
  keyAbsent _ := ⟨rfl, rfl⟩
  keyPresent := nofun
  latched := rfl
  busyClear := nofun
  engineCode := rfl
  errNoOutput h := absurd rfl h
  reslenBound := Nat.zero_le _
  ivgenCmd := nofun

theorem bufOk_of_buf_nil {s : State} (h : s.buf = []) : BufOk s := by simp [BufOk, h]

/-- Settles O56: nothing is listed in BUF, and every register is 0. -/
theorem resetMeetsTheInvariant : Obligations.ResetMeetsTheInvariant :=
  inv_resetRegisters (bufOk_of_buf_nil (s := State.reset) rfl)

theorem inv_hardReset (s : State) : (hardReset s).Inv :=
  inv_resetRegisters (bufOk_of_buf_nil (s := hardReset s) rfl)

theorem abandon_bufExp (s : State) : (abandon s).bufExp = s.bufExp := by
  obtain ⟨-, h⟩ | ⟨r, -, h⟩ := abandon_cases s <;> rw [h]

theorem inv_softReset {s : State} (h : s.Inv) : (softReset s).Inv :=
  inv_resetRegisters (t := { s with buf := (abandon s).buf, freed := (abandon s).freed })
    (bufOk_congr (bufOk_abandon h.bufOk) rfl (abandon_bufExp s).symm)

/-! ### Host transactions -/

theorem inv_answer {s : State} (d : Word) (e : Bool) (h : s.Inv) : (answer d e s).Inv := { h with }

theorem inv_withSched {s : State} (rest : List Event) (h : s.Inv) : State.Inv { s with sched := rest } := { h with }

/-- The accept clears what the last command reported (R15, R51). -/
theorem inv_accept {s : State} (w : Word) (h : s.Inv) : (accept w s).Inv :=
  { h with
    latched := rfl
    busyClear := fun _ => ⟨rfl, rfl, rfl, rfl⟩
    engineCode := rfl
    errNoOutput := fun _ => ⟨rfl, rfl⟩
    reslenBound := Nat.zero_le _
    ivgenCmd := nofun }

theorem inv_writeCmd {s : State} (w : Word) (h : s.Inv) : (writeCmd w s).Inv := by
  unfold writeCmd
  split
  · exact { h with }
  · exact inv_accept w h

theorem inv_writeCtrl {s : State} (v : Word) (h : s.Inv) : (writeCtrl v s).Inv := by
  unfold writeCtrl
  split
  · exact inv_softReset h
  · exact { h with }

/-- A write of STATUS can only clear DONE and CMDREJ (R14). -/
theorem inv_writeStatus {s : State} (v : Word) (h : s.Inv) :
    State.Inv { s with status := statusWrite v s.status } := by
  refine { h with busyClear := fun hb => ?_ }
  obtain ⟨hdone, hrest⟩ := h.busyClear hb
  exact ⟨by simp [statusWrite, hdone], hrest⟩

theorem inv_writeReg {s : State} (r : Reg) (v : Word) (h : s.Inv) : (writeReg r v s).Inv := by
  cases r with
  | ctrl => exact inv_writeCtrl v h
  | status => exact inv_writeStatus v h
  | cmd => exact inv_writeCmd v h
  | src | dst | len => exact { h with }
  | id | reslen | ivHi | ivLo => exact h

theorem inv_writeWindowByte {s : State} (a : Nat) (v : Byte) (h : s.Inv) : (writeWindowByte a v s).Inv := by
  unfold writeWindowByte
  split
  · next ha =>
    obtain ⟨hwf, hin⟩ := bufOk_memWrite (bs := [v]) h.bufOk ha
    exact { h with bufSorted := hwf, bufInRange := hin }
  · exact h

theorem inv_writeWindowWord {s : State} (a : Nat) (v : Word) (h : s.Inv) : (writeWindowWord a v s).Inv :=
  inv_writeWindowByte _ _ (inv_writeWindowByte _ _ (inv_writeWindowByte _ _ (inv_writeWindowByte _ _ h)))

theorem inv_transact {s : State} (t : Tx) (h : s.Inv) : (transact t s).Inv := by
  unfold transact
  split
  · obtain ⟨d, e, u, hu, rfl | ⟨-, -, r, -, rfl⟩⟩ := regTransaction_cases t s <;> rw [hu]
    · exact inv_answer d e h
    · exact inv_answer d e (inv_writeReg r _ h)
  · obtain ⟨d, e, u, hu, rfl | ⟨-, -, -, rfl | rfl⟩⟩ := bufTransaction_cases t (t.offset.toNat - 0x10000) s <;> rw [hu]
    · exact inv_answer d e h
    · exact inv_answer d e (inv_writeWindowByte _ _ h)
    · exact inv_answer d e (inv_writeWindowWord _ _ h)

/-- Settles O57, by the oldest event of the schedule: each kind of event keeps the invariant. -/
theorem stepKeepsTheInvariant : Obligations.StepKeepsTheInvariant := by
  intro s t hs h
  match hsched : s.sched with
  | [] =>
    rw [step_of_sched_nil hsched] at h
    exact inv_engineTurn hs h
  | .host tx :: rest =>
    rw [step_of_sched_host hsched] at h
    cases h
    exact inv_transact tx (inv_withSched rest hs)
  | .engine b :: rest =>
    rw [step_of_sched_engine hsched] at h
    exact inv_engineTurn (inv_withSched rest hs) h
  | .reset :: rest =>
    rw [step_of_sched_reset hsched] at h
    cases h
    exact inv_hardReset _

end Sys2Proof.Machine
end

section
/-!
A running command and the operand registers: the completion reads LAT, never SRC, DST and LEN, so rewriting them while the
command runs commutes with it (spec 10_state.md R28; 70_reset_and_hazards.md R214).
-/
namespace Sys2Proof.Machine

/-- The state with other values of SRC, DST and LEN. -/
def withOperands (a d n : Word) (s : State) : State := { s with src := a, dst := d, len := n }

section
variable (a d n : Word) (s : State)

@[simp] theorem withOperands_lat : (withOperands a d n s).lat = s.lat := rfl
@[simp] theorem withOperands_rk : (withOperands a d n s).rk = s.rk := rfl
@[simp] theorem withOperands_iv : (withOperands a d n s).iv = s.iv := rfl
@[simp] theorem withOperands_status : (withOperands a d n s).status = s.status := rfl
@[simp] theorem memRead_withOperands (x m : Nat) : memRead (withOperands a d n s) x m = memRead s x m := rfl
@[simp] theorem inputBytes_withOperands : inputBytes (withOperands a d n s) = inputBytes s := rfl
@[simp] theorem inRange_withOperands (r : Region) : inRange (withOperands a d n s) r = inRange s r := rfl
@[simp] theorem regionsOk_withOperands (i o : Region) : regionsOk (withOperands a d n s) i o = regionsOk s i o := rfl
@[simp] theorem writeOutput_withOperands (out : Bytes) :
    writeOutput out (withOperands a d n s) = withOperands a d n (writeOutput out s) := rfl
@[simp] theorem setFeedback_withOperands (v : Block) :
    setFeedback v (withOperands a d n s) = withOperands a d n (setFeedback v s) := rfl

@[simp] theorem setReslen_withOperands (m : Nat) :
    setReslen m (withOperands a d n s) = withOperands a d n (setReslen m s) := rfl
@[simp] theorem failKey_withOperands : failKey (withOperands a d n s) = withOperands a d n (failKey s) := rfl
@[simp] theorem loadKey_withOperands (key : Block) :
    loadKey key (withOperands a d n s) = withOperands a d n (loadKey key s) := rfl
@[simp] theorem failIv_withOperands : failIv (withOperands a d n s) = withOperands a d n (failIv s) := rfl
@[simp] theorem loadIv_withOperands (iv : Block) :
    loadIv iv (withOperands a d n s) = withOperands a d n (loadIv iv s) := rfl
@[simp] theorem zeroizeState_withOperands :
    zeroizeState (withOperands a d n s) = withOperands a d n (zeroizeState s) := rfl

@[simp] theorem complete_withOperands (op : BitVec 4) (code : ErrCode) :
    complete op code (withOperands a d n s) = withOperands a d n (complete op code s) := by
  cases h : isCipherOp op
  · rw [complete_plain _ _ _ h, complete_plain _ _ _ h]
    rfl
  · rw [complete_cipher _ _ _ h, complete_cipher _ _ _ h]
    rfl

@[simp] theorem selectIv_withOperands :
    selectIv (withOperands a d n s) = ((selectIv s).1, withOperands a d n (selectIv s).2) := by
  cases h : s.status.ivv
  · simp only [selectIv, withOperands_status, h]
    rfl
  · simp only [selectIv, withOperands_status, h]
    rfl

theorem runBlock_withOperands (op : BitVec 4) (f : Vector RoundKey 16 → Bytes → Bytes) :
    runBlock op f (withOperands a d n s) = withOperands a d n (runBlock op f s) := by
  simp [runBlock, apply_ite (withOperands a d n)]

end

/-- A command commutes with rewriting SRC, DST and LEN. -/
theorem exec_withOperands (a d n : Word) {i : Instr} {s t : State} (h : exec i s = .next t) :
    exec i (withOperands a d n s) = .next (withOperands a d n t) := by
  cases i <;> cases h <;> refine congrArg Host.Outcome.next ?_
  case encb | decb => exact runBlock_withOperands ..
  case ecbdec =>
    cases hout : ecbDecrypt s.rk (inputBytes s) <;> simp [hout, apply_ite (withOperands a d n)]
  case unpad bs =>
    cases hout : unpadBytes (inputBytes s) bs.toNat <;> simp [hout, apply_ite (withOperands a d n)]
  all_goals simp [apply_ite (withOperands a d n)]

theorem completion_withOperands (a d n : Word) {s t : State} (h : completion s = .next t) :
    completion (withOperands a d n s) = .next (withOperands a d n t) := by
  unfold completion at h ⊢
  rw [withOperands_lat]
  split at h
  · exact exec_withOperands a d n h
  · cases h
    exact congrArg Host.Outcome.next (complete_withOperands ..)
  · cases h
    exact congrArg Host.Outcome.next (complete_withOperands ..)

/-- Settles O27: the step is the completion, which commutes with rewriting SRC, DST and LEN. -/
theorem runningCommandIgnoresOperandWrites : Obligations.RunningCommandIgnoresOperandWrites := by
  intro s t a d n hb hs h
  rw [step_of_busy hb hs] at h
  exact (step_of_busy (s := withOperands a d n s) hb hs).trans (completion_withOperands a d n h)

end Sys2Proof.Machine
end

section
/-!
The host's register transactions, register by register (spec 10_state.md R12 to R22; 60_exceptions.md R182, R188).
-/
namespace Sys2Proof.Machine

/-! ### What an answer depends on -/

/-- The answer of a register transaction depends on the registers it can read alone. -/
theorem regTransaction_resp_congr {s u : State} (t : Tx) (hread : ∀ r, readReg r u = readReg r s) :
    (regTransaction t u).resp = (regTransaction t s).resp := by
  unfold regTransaction
  split
  · cases regAt t.offset.toNat <;> cases t.write <;> simp [hread]
  · rfl

/-- The answer of a window transaction depends on BUSY and the bytes of the window alone. -/
theorem bufTransaction_resp_congr {s u : State} (t : Tx) (a : Nat) (hbusy : u.status.busy = s.status.busy)
    (hbyte : ∀ x, windowByte u x = windowByte s x) : (bufTransaction t a u).resp = (bufTransaction t a s).resp := by
  unfold bufTransaction
  rw [hbusy]
  split
  · rfl
  · cases t.size <;> cases t.write <;> dsimp only
    case s8.false => simp [hbyte]
    case s32.false => split <;> simp [readWindowWord, hbyte, busError]
    case s32.true => split <;> simp [busError]
    all_goals simp [busError]

/-- Settles O43: no register read and no window byte is a function of K, RK or FB. -/
theorem keyStateIsNeverRead : Obligations.KeyStateIsNeverRead := by
  intro t s k fb rk
  unfold transact
  split
  · exact regTransaction_resp_congr t fun r => by cases r <;> rfl
  · exact bufTransaction_resp_congr t _ rfl fun _ => rfl

/-! ### Reserved offsets -/

/-- No register stands above IV_LO (R22). -/
theorem regAt_eq_none {off : Nat} (h : 0x028 ≤ off) : regAt off = none := by
  unfold regAt
  split
  any_goals omega
  rfl

/-- Settles O44: an aligned access finds no register there, so it answers 0 over the old state. -/
theorem reservedOffsetsReadZero : Obligations.ReservedOffsetsReadZero := by
  intro off v s hlow hhigh halign
  have hreg : off.toNat < 0x10000 := by omega
  have hnone := regAt_eq_none hlow
  constructor <;> simp [transact, regTransaction, read32, write32, hreg, halign, hnone, answer]

/-! ### The registers at their offsets -/

theorem regAt_regOffset (r : Reg) : regAt (regOffset r).toNat = some r := by cases r <;> rfl

theorem regOffset_aligned (r : Reg) : (regOffset r).toNat < 0x10000 ∧ (regOffset r).toNat % 4 = 0 := by
  cases r <;> decide

theorem transact_read32_reg (r : Reg) (s : State) :
    transact (read32 (regOffset r)) s = answer (readReg r s) false s := by
  obtain ⟨hlt, halign⟩ := regOffset_aligned r
  simp [transact, regTransaction, read32, hlt, halign, regAt_regOffset]

theorem transact_write32_reg (r : Reg) (v : Word) (s : State) :
    transact (write32 (regOffset r) v) s = answer 0 false (writeReg r v s) := by
  obtain ⟨hlt, halign⟩ := regOffset_aligned r
  simp [transact, regTransaction, write32, hlt, halign, regAt_regOffset]

/-- Settles O45: the CMD write is `writeCmd`, which rejects while BUSY and else accepts. -/
theorem cmdWriteAcceptsOrRejects : Obligations.CmdWriteAcceptsOrRejects := by
  refine ⟨fun s w => ⟨fun hb => ?_, fun hb => ?_, ?_⟩, rfl⟩
  · exact (transact_write32_reg .cmd w s).trans (congrArg (answer 0 false) (if_pos hb))
  · exact (transact_write32_reg .cmd w s).trans (congrArg (answer 0 false) (if_neg (ne_true_of_eq_false hb)))
  · exact congrArg State.resp (transact_read32_reg .cmd s)

/-! ### STATUS and CTRL -/

theorem codeOfBits_codeBits (e : ErrCode) : codeOfBits (codeBits e) = some e := by cases e <;> rfl

/-- STATUS at its single bits (R14). -/
theorem statusWord_flags (st : Status) :
    (statusWord st).getLsbD 0 = st.busy ∧ (statusWord st).getLsbD 1 = st.done ∧ (statusWord st).getLsbD 2 = st.keyv ∧
    (statusWord st).getLsbD 3 = st.ivv ∧ (statusWord st).getLsbD 4 = st.ivgen ∧
    (statusWord st).getLsbD 5 = st.cmdrej := by
  simp only [statusWord, BitVec.getLsbD_append]
  simp

/-- STATUS above its single bits: the code in bits 11:8, and 0 elsewhere (R14). -/
theorem statusWord_fields (st : Status) :
    (statusWord st).extractLsb' 6 2 = 0 ∧ (statusWord st).extractLsb' 8 4 = codeBits st.errcode ∧
    (statusWord st).extractLsb' 12 20 = 0 := by
  simp only [statusWord, BitVec.extractLsb'_append_eq_ite]
  simp

/-- A write of STATUS clears DONE by bit 1 and CMDREJ by bit 5 (R14). -/
theorem statusWrite_eq (v : Word) (st : Status) :
    statusWrite v st = { st with
      done := if v.getLsbD 1 = true then false else st.done
      cmdrej := if v.getLsbD 5 = true then false else st.cmdrej } := by
  unfold statusWrite
  cases v.getLsbD 1 <;> cases v.getLsbD 5 <;> simp

/-- Settles O46: the read is `statusWord`, whose bits are the fields, and the write is `statusWrite`. -/
theorem statusFieldsAndWriteOneToClear : Obligations.StatusFieldsAndWriteOneToClear := by
  intro s v r
  have hr : r = statusWord s.status := congrArg (·.resp.rdata) (transact_read32_reg .status s)
  obtain ⟨h0, h1, h2, h3, h4, h5⟩ := statusWord_flags s.status
  refine ⟨?_, ?_, ?_⟩
  · rw [hr]
    exact ⟨h0, h1, h2, h3, h4, h5, statusWord_fields s.status⟩
  · exact ⟨rfl, rfl, rfl, rfl, rfl, rfl, rfl, rfl, rfl, rfl, rfl, rfl, rfl, codeOfBits_codeBits⟩
  · rw [← statusWrite_eq]
    exact transact_write32_reg .status v s

/-- CTRL reads IRQEN in bit 0 and 0 elsewhere (R13). -/
theorem ctrlWord_fields (irqen : Bool) :
    (ctrlWord irqen).getLsbD 0 = irqen ∧ (ctrlWord irqen).extractLsb' 1 31 = 0 := by
  simp only [ctrlWord, BitVec.getLsbD_append, BitVec.extractLsb'_append_eq_ite]
  simp

/-- A CTRL write with SRST is the soft reset, whatever else it carries (R13, R201). -/
theorem transact_write32_ctrl_reset {v : Word} (s : State) (h : v.getLsbD 1 = true) :
    transact (write32 0x004 v) s = answer 0 false (softReset s) :=
  (transact_write32_reg .ctrl v s).trans (congrArg (answer 0 false) (if_pos h))

/-- A CTRL write without SRST writes IRQEN (R13). -/
theorem transact_write32_ctrl_enable {v : Word} (s : State) (h : v.getLsbD 1 = false) :
    transact (write32 0x004 v) s = answer 0 false { s with irqen := v.getLsbD 0 } :=
  (transact_write32_reg .ctrl v s).trans (congrArg (answer 0 false) (if_neg (ne_true_of_eq_false h)))

/-- Settles O47: the read is `ctrlWord`, and SRST chooses between the soft reset and IRQEN. -/
theorem ctrlEnablesAndResets : Obligations.CtrlEnablesAndResets := by
  intro s v r
  have hr : r = ctrlWord s.irqen := congrArg (·.resp.rdata) (transact_read32_reg .ctrl s)
  refine ⟨?_, fun hv => transact_write32_ctrl_enable s hv, fun hv => ?_⟩
  · rw [hr]
    exact ctrlWord_fields s.irqen
  · rw [transact_write32_ctrl_reset s hv]
    exact ⟨rfl, rfl⟩

/-! ### The operand and result registers -/

/-- A byte of IV_HI is the byte of IV 32 bits higher (R21). -/
theorem byte_ivHi (iv : Block) {i : Nat} (h : i + 8 ≤ 32) :
    (ivHi iv).extractLsb' i 8 = iv.extractLsb' (32 + i) 8 := by
  ext j hj
  simp [ivHi, show i + j < 32 by omega, Nat.add_assoc]

/-- A byte of IV_LO is the byte of IV at the same bits (R21). -/
theorem byte_ivLo (iv : Block) {i : Nat} (h : i + 8 ≤ 32) : (ivLo iv).extractLsb' i 8 = iv.extractLsb' i 8 :=
  BitVec.extractLsb'_extractLsb'_of_le h

/-- IV_HI and IV_LO hold the bytes of IV in order (R21). -/
theorem bytes4_ivHi_ivLo (iv : Block) : bytes4 (ivHi iv) ++ bytes4 (ivLo iv) = bytes8 iv := by
  simp [bytes4, bytes8, byte_ivHi, byte_ivLo]

/-- Settles O48, register by register. -/
theorem operandAndResultRegisters : Obligations.OperandAndResultRegisters := by
  intro s v ok hi lo
  have hhi : hi = ivHi s.iv := congrArg (·.resp.rdata) (transact_read32_reg .ivHi s)
  have hlo : lo = ivLo s.iv := congrArg (·.resp.rdata) (transact_read32_reg .ivLo s)
  have hread (r : Reg) : (transact (read32 (regOffset r)) s).resp.rdata = readReg r s :=
    congrArg (·.resp.rdata) (transact_read32_reg r s)
  have hwrite (r : Reg) := transact_write32_reg r v s
  refine ⟨⟨congrArg State.resp (transact_read32_reg .id s), hwrite .id⟩,
    ⟨hwrite .src, hwrite .dst, hwrite .len, hread .src, hread .dst, hread .len⟩,
    ⟨hread .reslen, hwrite .reslen, hwrite .ivHi, hwrite .ivLo⟩, hhi, hlo, ?_⟩
  rw [hhi, hlo, bytes4_ivHi_ivLo]

end Sys2Proof.Machine
end

section
/-!
Reset and the draw (spec 10_state.md R16, R29; 70_reset_and_hazards.md R200 to R202).
-/
namespace Sys2Proof.Machine

/-- Settles O53: each value stands in `State.reset`. -/
theorem resetValues : Obligations.ResetValues := by
  refine ⟨rfl, rfl, rfl, rfl, rfl, rfl, rfl, rfl, rfl, fun i => ?_, rfl, rfl, fun _ => rfl,
    congrArg (·.resp.rdata) (transact_read32_reg .id State.reset), rfl⟩
  simp [State.reset, zeroKeys]

/-- Settles O55: the step is the hardware reset of the state with the event taken off. -/
theorem hardResetDrawsTheBufferAnew : Obligations.HardResetDrawsTheBufferAnew := by
  intro s rest h
  exact ⟨_, step_of_sched_reset h, rfl, fun _ => rfl⟩

/-! ### The draw -/

/-- A running CFBENC with its regions in order, a key and no IV awaits the random source (R16). -/
theorem awaitsDraw_of_cfbenc {s : State} (hcmd : decode s.lat.cmd = .command .cfbenc)
    (hfit : regionsOk s (inputRegion s.lat) (sameRegion s.lat) = true) (hkey : s.status.keyv = true)
    (hivv : s.status.ivv = false) : awaitsDraw s = true := by
  simp [awaitsDraw, hcmd, hfit, hkey, hivv]

/-- A CFBENC with its regions in order and a key succeeds with the selected IV (R142). -/
theorem exec_cfbenc_success {s : State} (hfit : regionsOk s (inputRegion s.lat) (sameRegion s.lat) = true)
    (hkey : s.status.keyv = true) :
    exec .cfbenc s = .next (complete (opField .cfbenc) .success
      (writeOutput (cfbEncrypt s.rk (inputBytes s) (selectIv s).1).1
        (setFeedback (cfbEncrypt s.rk (inputBytes s) (selectIv s).1).2 (selectIv s).2))) := by
  simp [exec, execCfbenc, hfit, hkey]

/-- The selection of a drawn IV sets IVGEN (R150). -/
theorem selectIv_ivgen {s : State} (hivv : s.status.ivv = false) : (selectIv s).2.status.ivgen = true := by
  obtain ⟨h, -⟩ | ⟨-, h⟩ := selectIv_cases s
  · exact absurd h (ne_true_of_eq_false hivv)
  · rw [h]

theorem completion_of_command {s : State} {i : Instr} (h : decode s.lat.cmd = .command i) :
    completion s = exec i s := by
  simp [completion, h]

/-- A running CFBENC that must draw completes with IVGEN when the source answers (R16, R142). -/
theorem engineTurn_cfbenc_draws {s : State} (hb : s.status.busy = true) (hcmd : decode s.lat.cmd = .command .cfbenc)
    (hfit : regionsOk s (inputRegion s.lat) (sameRegion s.lat) = true) (hkey : s.status.keyv = true)
    (hivv : s.status.ivv = false) :
    ∃ t, engineTurn true s = .next t ∧ t.status.busy = false ∧ t.status.done = true ∧ t.status.ivgen = true := by
  rw [engineTurn_true_of_busy hb, completion_of_command hcmd, exec_cfbenc_success hfit hkey]
  refine ⟨_, rfl, complete_busy .., complete_done .., ?_⟩
  rw [complete_ivgen]
  exact selectIv_ivgen hivv

/-- Settles O6: the command awaits the source, so the engine's turn waits or completes as the source answers. -/
theorem drawWaitsForTheSource : Obligations.DrawWaitsForTheSource := by
  intro s rest hb hcmd hfit hkey hivv
  have hdec : decode s.lat.cmd = .command .cfbenc := by rw [hcmd]; decide
  have hok : regionsOk s (inputRegion s.lat) (sameRegion s.lat) = true := (regionsOk_iff _ _ _).mpr hfit
  refine ⟨fun hs => ?_, fun hs => ?_⟩ <;> rw [step_of_sched_engine hs]
  · have hwait : awaitsDraw { s with sched := rest } = true := awaitsDraw_of_cfbenc hdec hok hkey hivv
    simp [engineTurn, hb, hwait]
  · exact engineTurn_cfbenc_draws (s := { s with sched := rest }) hb hdec hok hkey hivv

/-! ### The soft reset -/

/-- In IDLE nothing is abandoned, and neither is a word that is no command (R202). -/
theorem abandonedRegion_eq_none {s : State} (h : s.status.busy = false ∨ ∀ i, decode s.lat.cmd ≠ .command i) :
    abandonedRegion s = none := by
  unfold abandonedRegion
  split
  · next hb =>
    split
    · next i hi => simp [hb, hi] at h
    · rfl
    · rfl
  · rfl

/-- A running command abandons its output region, where it has one in range (R202). -/
theorem abandonedRegion_of_command {s : State} {i : Instr} (hb : s.status.busy = true)
    (hi : decode s.lat.cmd = .command i) : abandonedRegion s = (outputRegion i s.lat).filter (inRange s) := by
  simp [abandonedRegion, hb, hi]

theorem abandon_epoch (s : State) : (abandon s).epoch = s.epoch := by
  obtain ⟨-, h⟩ | ⟨r, -, h⟩ := abandon_cases s <;> rw [h]

/-- After the soft reset BUF reads as the abandoned command left it (R201). -/
theorem byteAt_softReset (s : State) (a : Nat) : byteAt (softReset s) a = byteAt (abandon s) a :=
  byteAt_congr (s := abandon s) (t := softReset s) rfl (abandon_epoch s).symm a

/-- With nothing abandoned the soft reset keeps BUF and the count of free bytes. -/
theorem softReset_keeps {s : State} (h : abandonedRegion s = none) :
    (softReset s).freed = s.freed ∧ ∀ a, byteAt (softReset s) a = byteAt s a := by
  have ha : abandon s = s := by simp [abandon, h]
  refine ⟨?_, fun a => ?_⟩
  · rw [softReset, ha]
  · rw [byteAt_softReset, ha]

/-- The soft reset turns the abandoned region into free bytes and keeps the others (R202). -/
theorem softReset_frees {s : State} {r : Region} (h : abandonedRegion s = some r) :
    (softReset s).freed = s.freed + r.len ∧
    (∀ j, j < r.len → byteAt (softReset s) (r.start + j) = Config.abandonedByte (s.freed + j)) ∧
    ∀ a, a < r.start ∨ r.start + r.len ≤ a → byteAt (softReset s) a = byteAt s a := by
  have ha : abandon s = { memWrite s r.start (freeBytes s r.len) with freed := s.freed + r.len } := by
    simp [abandon, h]
  have hbyte (a : Nat) : byteAt (softReset s) a = byteAt (memWrite s r.start (freeBytes s r.len)) a := by
    rw [byteAt_softReset, ha]
    rfl
  have hlen : (freeBytes s r.len).length = r.len := by simp [freeBytes]
  refine ⟨?_, fun j hj => ?_, fun a hout => ?_⟩
  · rw [softReset, ha]
  · rw [hbyte, byteAt_memWrite_inside s r.start j _ (by rwa [hlen])]
    simp [freeBytes]
  · rw [hbyte, byteAt_memWrite_outside s r.start a _ (by rwa [hlen])]

/-- Settles O54: the soft reset keeps or frees bytes as `abandonedRegion` is none or some region. -/
theorem softResetKeepsTheBuffer : Obligations.SoftResetKeepsTheBuffer := by
  intro s v hv t kept
  have ht : t = answer 0 false (softReset s) := transact_write32_ctrl_reset s hv
  have hkept (h : abandonedRegion s = none) : kept := by
    simp only [kept, ht]
    exact softReset_keeps h
  refine ⟨by rw [ht]; rfl, fun hb => hkept (abandonedRegion_eq_none (.inl hb)),
    fun hno => hkept (abandonedRegion_eq_none (.inr hno)), fun i hi => ⟨fun r hr hfit hb => ?_, fun hout => ?_⟩⟩
  · have habandoned : abandonedRegion s = some r := by
      rw [abandonedRegion_of_command hb hi, hr]
      simp [inRange, hfit]
    rw [ht]
    exact softReset_frees habandoned
  · cases hb : s.status.busy
    · exact hkept (abandonedRegion_eq_none (.inl hb))
    · apply hkept
      rw [abandonedRegion_of_command hb hi, Option.filter_eq_none_iff]
      intro r hr
      have := hout r hr
      simp [inRange]
      omega

end Sys2Proof.Machine
end

section
/-!
The bus rules of every transaction, and the BUF window (spec 20_memory.md R40 to R43, R49, R51, R52).
-/
namespace Sys2Proof.Machine

/-! ### Reads and bus errors -/

/-- A read answers over the old state (R42, R43, R51). -/
theorem transact_of_read {t : Tx} (s : State) (h : t.write = false) : ∃ d e, transact t s = answer d e s := by
  unfold transact
  split
  · obtain ⟨d, e, u, hu, rfl | ⟨hw, -⟩⟩ := regTransaction_cases t s
    · exact ⟨d, e, hu⟩
    · exact absurd hw (ne_true_of_eq_false h)
  · obtain ⟨d, e, u, hu, rfl | ⟨hw, -⟩⟩ := bufTransaction_cases t (t.offset.toNat - 0x10000) s
    · exact ⟨d, e, hu⟩
    · exact absurd hw (ne_true_of_eq_false h)

/-- Settles O41: a read answers over the old state. -/
theorem readsHaveNoSideEffect : Obligations.ReadsHaveNoSideEffect := by
  intro t s h
  obtain ⟨d, e, ht⟩ := transact_of_read s h
  rw [ht]
  rfl

/-- A register access that is not an aligned 32-bit one is a bus error (R42). -/
theorem regTransaction_eq_busError {t : Tx} (s : State) (h : t.size ≠ .s32 ∨ t.offset.toNat % 4 ≠ 0) :
    regTransaction t s = busError s :=
  if_neg (not_and_or.mpr h)

/-- An aligned 32-bit register access is no bus error (R42, R22). -/
theorem regTransaction_err {t : Tx} (s : State) (hsize : t.size = .s32) (halign : t.offset.toNat % 4 = 0) :
    (regTransaction t s).resp.err = false := by
  rw [regTransaction, if_pos ⟨hsize, halign⟩]
  split <;> rfl

/-- A window access while BUSY, of size 16, or misaligned of size 32 is a bus error (R43). -/
theorem bufTransaction_eq_busError {t : Tx} {a : Nat} {s : State}
    (h : s.status.busy = true ∨ t.size = .s16 ∨ (t.size = .s32 ∧ a % 4 ≠ 0)) : bufTransaction t a s = busError s := by
  unfold bufTransaction
  obtain hbusy | hsize | ⟨hsize, halign⟩ := h
  · exact if_pos hbusy
  · simp [hsize]
  · cases t.write <;> simp [hsize, halign]

/-- In IDLE an 8-bit or aligned 32-bit window access is no bus error (R43). -/
theorem bufTransaction_err {t : Tx} {a : Nat} {s : State} (hidle : s.status.busy = false)
    (hsize : t.size = .s8 ∨ (t.size = .s32 ∧ a % 4 = 0)) : (bufTransaction t a s).resp.err = false := by
  unfold bufTransaction
  obtain hsize | ⟨hsize, halign⟩ := hsize
  · cases t.write <;> simp [hidle, hsize]
  · cases t.write <;> simp [hidle, hsize, halign]

theorem transact_of_isBusError {t : Tx} {s : State} (h : IsBusError t s) : transact t s = busError s := by
  obtain ⟨hreg, h⟩ | ⟨hwin, h⟩ := h
  · rw [transact, if_pos hreg]
    exact regTransaction_eq_busError s h
  · rw [transact, if_neg (by omega)]
    exact bufTransaction_eq_busError (h.imp_right (Or.imp_right (And.imp_right (by omega))))

theorem transact_err_of_not_isBusError {t : Tx} {s : State} (h : ¬ IsBusError t s) :
    (transact t s).resp.err = false := by
  unfold transact
  split
  · next hreg =>
    have hsize : t.size = .s32 := by_contra fun hne => h (.inl ⟨hreg, .inl hne⟩)
    have halign : t.offset.toNat % 4 = 0 := by_contra fun hne => h (.inl ⟨hreg, .inr hne⟩)
    exact regTransaction_err s hsize halign
  · next hwin =>
    have hno (hbad : s.status.busy = true ∨ t.size = .s16 ∨ (t.size = .s32 ∧ t.offset.toNat % 4 ≠ 0)) : False :=
      h (.inr ⟨by omega, hbad⟩)
    have hidle : s.status.busy = false := eq_false_of_ne_true fun hb => hno (.inl hb)
    refine bufTransaction_err hidle ?_
    match hsize : t.size with
    | .s8 => exact .inl rfl
    | .s16 => exact (hno (.inr (.inl hsize))).elim
    | .s32 =>
      have halign : t.offset.toNat % 4 = 0 := by_contra fun hne => hno (.inr (.inr ⟨hsize, hne⟩))
      exact .inr ⟨rfl, by omega⟩

/-- A write answers 0, a bus error or not (R41). -/
theorem transact_rdata_of_write {t : Tx} (s : State) (h : t.write = true) : (transact t s).resp.rdata = 0 := by
  unfold transact
  split
  · unfold regTransaction
    rw [h]
    split
    · cases regAt t.offset.toNat <;> rfl
    · rfl
  · unfold bufTransaction
    rw [h]
    split
    · rfl
    · cases t.size <;> dsimp only
      case s32 => split <;> rfl
      all_goals rfl

/-- Settles O42: the bus errors are the transactions that answer with `busError`, and every other one answers
without error. -/
theorem busErrorsChangeNothing : Obligations.BusErrorsChangeNothing := by
  intro t s
  refine ⟨⟨fun herr => ?_, fun h => ?_⟩, fun h => transact_of_isBusError h, fun h => transact_rdata_of_write s h⟩
  · by_contra h
    exact absurd herr (ne_true_of_eq_false (transact_err_of_not_isBusError h))
  · rw [transact_of_isBusError h]
    rfl

/-! ### The window in IDLE -/

@[simp] theorem windowByte_answer (d : Word) (e : Bool) (s : State) (a : Nat) :
    windowByte (answer d e s) a = windowByte s a := rfl

@[simp] theorem readWindowWord_answer (d : Word) (e : Bool) (s : State) (a : Nat) :
    readWindowWord (answer d e s) a = readWindowWord s a := rfl

theorem bufOffset_toNat {a : Nat} (h : a < 0x10000) : (bufOffset a).toNat = 0x10000 + a := by
  rw [bufOffset, BitVec.toNat_ofNat]
  omega

/-- A transaction at the host offset of a buffer address is the window transaction at that address (R40). -/
theorem transact_bufOffset {t : Tx} {a : Nat} (s : State) (ha : a < 0x10000) (ht : t.offset = bufOffset a) :
    transact t s = bufTransaction t a s := by
  rw [transact, ht, bufOffset_toNat ha, if_neg (by omega), Nat.add_sub_cancel_left]

section
variable {s : State} {a : Nat}

theorem transact_read8_window (hidle : s.status.busy = false) (ha : a < 0x10000) :
    transact (read8 (bufOffset a)) s = answer ((windowByte s a).zeroExtend 32) false s := by
  rw [transact_bufOffset s ha rfl]
  simp [bufTransaction, read8, hidle]

theorem transact_write8_window (v : Word) (hidle : s.status.busy = false) (ha : a < 0x10000) :
    transact (write8 (bufOffset a) v) s = answer 0 false (writeWindowByte a (v.extractLsb' 0 8) s) := by
  rw [transact_bufOffset s ha rfl]
  simp [bufTransaction, write8, hidle]

theorem transact_read32_window (hidle : s.status.busy = false) (ha : a < 0x10000) (halign : a % 4 = 0) :
    transact (read32 (bufOffset a)) s = answer (readWindowWord s a) false s := by
  rw [transact_bufOffset s ha rfl]
  simp [bufTransaction, read32, hidle, halign]

theorem transact_write32_window (v : Word) (hidle : s.status.busy = false) (ha : a < 0x10000) (halign : a % 4 = 0) :
    transact (write32 (bufOffset a) v) s = answer 0 false (writeWindowWord a v s) := by
  rw [transact_bufOffset s ha rfl]
  simp [bufTransaction, write32, hidle, halign]

end

/-! ### Past the buffer -/

section
variable {s : State} {a : Nat}

theorem windowByte_past (h : s.bufBytes ≤ a) : windowByte s a = 0 := if_neg (by omega)

theorem writeWindowByte_past (v : Byte) (h : s.bufBytes ≤ a) : writeWindowByte a v s = s := if_neg (by omega)

theorem readWindowWord_past (h : s.bufBytes ≤ a) : readWindowWord s a = 0 := by
  rw [readWindowWord, windowByte_past h, windowByte_past (a := a + 1) (by omega),
    windowByte_past (a := a + 2) (by omega), windowByte_past (a := a + 3) (by omega)]
  rfl

theorem writeWindowWord_past (v : Word) (h : s.bufBytes ≤ a) : writeWindowWord a v s = s := by
  rw [writeWindowWord, writeWindowByte_past _ h, writeWindowByte_past (a := a + 1) _ (by omega),
    writeWindowByte_past (a := a + 2) _ (by omega), writeWindowByte_past (a := a + 3) _ (by omega)]

end

/-- Settles O50: past BUF_BYTES every lane of the window reads 0 and drops what is written. -/
theorem windowPastTheBufferReadsZero : Obligations.WindowPastTheBufferReadsZero := by
  intro s a v hidle hpast ha same
  refine ⟨?_, ?_, fun halign => ⟨?_, ?_⟩⟩
  · rw [transact_read8_window hidle ha, windowByte_past hpast]
    rfl
  · rw [transact_write8_window v hidle ha, writeWindowByte_past _ hpast]
    rfl
  · rw [transact_read32_window hidle ha halign, readWindowWord_past hpast]
    rfl
  · rw [transact_write32_window v hidle ha halign, writeWindowWord_past v hpast]
    rfl

/-! ### Inside the buffer -/

/-- The buffer is no longer than its window (R6, R40). -/
theorem bufBytes_le (s : State) : s.bufBytes ≤ 0x10000 :=
  Nat.pow_le_pow_right (n := 2) (j := 16) (by decide) (by omega)

/-- The buffer holds whole words, so an aligned word that begins in it ends in it (R6). -/
theorem aligned_word_fits {s : State} {a : Nat} (ha : a < s.bufBytes) (halign : a % 4 = 0) : a + 4 ≤ s.bufBytes := by
  have hwhole : s.bufBytes = 4 * (4 * 2 ^ s.bufExp.val) := by
    rw [State.bufBytes, pow_add]
    omega
  omega

section
variable {s : State} {a : Nat}

theorem windowByte_inside (h : a < s.bufBytes) : windowByte s a = byteAt s a := if_pos h

theorem writeWindowByte_inside (v : Byte) (h : a < s.bufBytes) : writeWindowByte a v s = memWrite s a [v] := if_pos h

/-- A word read through the window has the byte at the lowest address in bits 31:24 (R49). -/
theorem readWindowWord_inside (h : a + 4 ≤ s.bufBytes) :
    readWindowWord s a = byteAt s a ++ byteAt s (a + 1) ++ byteAt s (a + 2) ++ byteAt s (a + 3) := by
  rw [readWindowWord, windowByte_inside (a := a) (by omega), windowByte_inside (a := a + 1) (by omega),
    windowByte_inside (a := a + 2) (by omega), windowByte_inside (a := a + 3) (by omega)]

/-- A word written through the window is a MemWrite of its bytes, most significant first (R49). -/
theorem writeWindowWord_inside (v : Word) (h : a + 4 ≤ s.bufBytes) :
    writeWindowWord a v s = memWrite s a (bytes4 v) := by
  have hlane {u : State} {j : Nat} (b : Byte) (hj : j < 4) (hu : u.bufExp = s.bufExp) :
      writeWindowByte (a + j) b u = memWrite u (a + j) [b] :=
    writeWindowByte_inside b (by rw [bufBytes_congr hu]; omega)
  calc writeWindowWord a v s
    _ = memWrite (memWrite (memWrite (memWrite s a [v.extractLsb' 24 8]) (a + 1) [v.extractLsb' 16 8])
          (a + 2) [v.extractLsb' 8 8]) (a + 3) [v.extractLsb' 0 8] := by
      rw [writeWindowWord, hlane _ (by decide) (by simp), hlane _ (by decide) (by simp), hlane _ (by decide) (by simp),
        writeWindowByte_inside _ (by omega)]
    _ = memWrite s a (bytes4 v) := rfl

end

/-- A word is its four bytes, most significant first (R8). -/
theorem word_of_bytes (v : Word) :
    v.extractLsb' 24 8 ++ v.extractLsb' 16 8 ++ v.extractLsb' 8 8 ++ v.extractLsb' 0 8 = v := by
  rw [BitVec.extractLsb'_append_extractLsb'_eq_extractLsb' (by rfl),
    BitVec.extractLsb'_append_extractLsb'_eq_extractLsb' (by rfl),
    BitVec.extractLsb'_append_extractLsb'_eq_extractLsb' (by rfl)]
  exact BitVec.extractLsb'_eq_self

/-- The bytes of BUF after a word written at `a`, the most significant at the lowest address (R49). -/
theorem byteAt_memWrite_bytes4 (s : State) (a : Nat) (v : Word) :
    byteAt (memWrite s a (bytes4 v)) a = v.extractLsb' 24 8 ∧
    byteAt (memWrite s a (bytes4 v)) (a + 1) = v.extractLsb' 16 8 ∧
    byteAt (memWrite s a (bytes4 v)) (a + 2) = v.extractLsb' 8 8 ∧
    byteAt (memWrite s a (bytes4 v)) (a + 3) = v.extractLsb' 0 8 :=
  have hbyte (j : Nat) (hj : j < 4) := byteAt_memWrite_inside s a j (bytes4 v) hj
  ⟨hbyte 0 (by decide), hbyte 1 (by decide), hbyte 2 (by decide), hbyte 3 (by decide)⟩

theorem byteAt_memWrite_byte (s : State) (a : Nat) (b : Byte) : byteAt (memWrite s a [b]) a = b :=
  byteAt_memWrite_inside s a 0 [b] Nat.one_pos

/-- The window reads back a word written in BUF (R49). -/
theorem readWindowWord_memWrite {s : State} {a : Nat} (v : Word) (h : a + 4 ≤ s.bufBytes) :
    readWindowWord (memWrite s a (bytes4 v)) a = v := by
  obtain ⟨h0, h1, h2, h3⟩ := byteAt_memWrite_bytes4 s a v
  rw [readWindowWord_inside (s := memWrite s a (bytes4 v)) h, h0, h1, h2, h3]
  exact word_of_bytes v

/-- The window reads back a byte written in BUF. -/
theorem windowByte_memWrite {s : State} {a : Nat} (b : Byte) (h : a < s.bufBytes) :
    windowByte (memWrite s a [b]) a = b :=
  (windowByte_inside (s := memWrite s a [b]) h).trans (byteAt_memWrite_byte s a b)

/-- Settles O49: below BUF_BYTES a window write is a MemWrite of the word's bytes or of the one byte, and the window reads
back what it wrote. -/
theorem windowMovesBytesBigEndian : Obligations.WindowMovesBytesBigEndian := by
  intro s a v hidle ha t u
  have hwindow : a < 0x10000 := lt_of_lt_of_le ha (bufBytes_le s)
  refine ⟨fun halign => ?_, ?_⟩
  · have hfit := aligned_word_fits ha halign
    have ht : t = answer 0 false (memWrite s a (bytes4 v)) := by
      rw [← writeWindowWord_inside v hfit]
      exact transact_write32_window v hidle hwindow halign
    rw [ht]
    refine ⟨rfl, byteAt_memWrite_bytes4 s a v, fun b hb => byteAt_memWrite_outside s a b (bytes4 v) hb, ?_⟩
    rw [transact_read32_window (s := answer 0 false (memWrite s a (bytes4 v))) hidle hwindow halign,
      readWindowWord_answer, readWindowWord_memWrite v hfit, answer_resp]
  · have hu : u = answer 0 false (memWrite s a [v.extractLsb' 0 8]) := by
      rw [← writeWindowByte_inside _ ha]
      exact transact_write8_window v hidle hwindow
    rw [hu]
    refine ⟨rfl, byteAt_memWrite_byte s a _, fun b hb => byteAt_memWrite_outside s a b [v.extractLsb' 0 8] ?_, ?_⟩
    · simp only [List.length_singleton]
      omega
    · rw [transact_read8_window (s := answer 0 false (memWrite s a [v.extractLsb' 0 8])) hidle hwindow,
        windowByte_answer, windowByte_memWrite _ ha, answer_resp]

end Sys2Proof.Machine
end

section
/-!
The decoder and the encoder: decode inverts encode on the well-formed commands, and every word is illegal, unsupported or a
command as R65 lists it (spec 30_encoding.md R61 to R65; 60_exceptions.md R180, R182).
-/
namespace Sys2Proof.Machine

/-! ### Decode and encode -/

/-- The word of a well-formed command has that command's fields (R61), which pass the tests of R64 and select its row of
R63. -/
theorem decode_encode {i : Instr} (h : i.wf = true) : decode (encode i) = .command i := by
  obtain ⟨hop, hmode, hbs, h0, h1⟩ := Laws.EncodingFields.fields_commandWord (opField i) (modeField i) (bsField i)
  unfold decode encode
  rw [hop, hmode, hbs, h0, h1]
  cases i
  case pad bs | unpad bs =>
    have hne : bs ≠ 0#8 := by simpa [Instr.wf] using h
    simp [opField, modeField, bsField, isPadOp, isModeOp, commandOf, hne]
  all_goals rfl

/-- Settles O1: the fields of a command's word pass the tests of R64 and select its row. -/
theorem decodeInvertsEncode : Obligations.DecodeInvertsEncode := fun _ h => decode_encode h

/-- A decoded PAD or UNPAD has passed the test of R64 on its block size. -/
theorem wf_of_decode {w : Word} {i : Instr} (h : decode w = .command i) : i.wf = true := by
  obtain ⟨-, hop, -, hbs⟩ := decode_command_fields h
  cases i
  case pad bs | unpad bs =>
    by_contra hwf
    have hzero : wordBs w = 0 := by simpa [Instr.wf, hbs, bsField] using hwf
    simp [decode, hop, hzero, opField, isPadOp] at h
  all_goals rfl

/-- Settles O2: a word that decodes to a command carries that command's fields. -/
theorem decodeAcceptsOnlyEncodings : Obligations.DecodeAcceptsOnlyEncodings :=
  fun _ _ h => ⟨wf_of_decode h, encode_of_decode h⟩

/-! ### The lists of R65 -/

theorem isPadOp_iff (op : BitVec 4) : isPadOp op = true ↔ op = 7 ∨ op = 8 := by simp [isPadOp]

theorem isModeOp_iff (op : BitVec 4) : isModeOp op = true ↔ op = 5 ∨ op = 6 := by simp [isModeOp]

theorem isPadOp_eq_false_of_isModeOp {op : BitVec 4} (h : isModeOp op = true) : isPadOp op = false := by
  obtain rfl | rfl := (isModeOp_iff op).mp h <;> rfl

theorem lt_ten_of_isModeOp {op : BitVec 4} (h : isModeOp op = true) : op.toNat < 10 := by
  obtain rfl | rfl := (isModeOp_iff op).mp h <;> decide

/-- R65's list of illegal encodings in the terms of R64's tests. -/
theorem illegalWord_iff (w : Word) :
    IllegalWord w ↔ wordRsv0 w ≠ 0 ∨ wordRsv1 w ≠ 0 ∨ 10 ≤ (wordOp w).toNat ∨
      (isPadOp (wordOp w) = false ∧ wordBs w ≠ 0) ∨ (isPadOp (wordOp w) = true ∧ wordBs w = 0) ∨
      (isModeOp (wordOp w) = false ∧ wordMode w ≠ 0) := by
  simp only [Bool.eq_false_iff, ne_eq, isPadOp_iff, isModeOp_iff, not_or]
  rfl

/-- R65's list of unsupported encodings in the terms of R64's tests. -/
theorem unsupportedWord_iff (w : Word) :
    UnsupportedWord w ↔ isModeOp (wordOp w) = true ∧ (wordMode w = 2 ∨ wordMode w = 3) ∧ wordRsv0 w = 0 ∧
      wordRsv1 w = 0 ∧ wordBs w = 0 := by
  rw [isModeOp_iff]
  rfl

/-- The two lists of R65 share no word. -/
theorem not_unsupportedWord_of_illegalWord {w : Word} (h : IllegalWord w) : ¬ UnsupportedWord w := by
  rw [unsupportedWord_iff]
  rintro ⟨hmodeOp, -, h0, h1, hbs⟩
  have hpad := isPadOp_eq_false_of_isModeOp hmodeOp
  have hlt := lt_ten_of_isModeOp hmodeOp
  obtain h | h | h | ⟨-, h⟩ | ⟨h, -⟩ | ⟨h, -⟩ := (illegalWord_iff w).mp h
  · exact h h0
  · exact h h1
  · omega
  · exact h hbs
  · exact absurd h (ne_true_of_eq_false hpad)
  · exact absurd hmodeOp (ne_true_of_eq_false h)

/-- The table of R63 has a row for every OP below 10. -/
theorem exists_commandOf {op : BitVec 4} (h : op.toNat < 10) (mode : BitVec 2) (bs : BitVec 8) :
    ∃ i, commandOf op mode bs = .command i := by
  unfold commandOf
  split
  case h_13 => grind -- the default row, which no OP below 10 reaches
  all_goals exact ⟨_, rfl⟩

/-- Every word is illegal, unsupported or a command, and the lists of R65 say which. -/
theorem decode_cases (w : Word) :
    (IllegalWord w ∧ decode w = .illegal) ∨
    (UnsupportedWord w ∧ decode w = .unsupported) ∨
    (¬ IllegalWord w ∧ ¬ UnsupportedWord w ∧ ∃ i, decode w = .command i) := by
  rw [illegalWord_iff, unsupportedWord_iff]
  simp only [decode]
  split_ifs with hrsv hop hpad hbs hmode hplain
  · exact .inl ⟨by tauto, rfl⟩
  · exact .inl ⟨by tauto, rfl⟩
  · exact .inl ⟨by tauto, rfl⟩
  · exact .inl ⟨by tauto, rfl⟩
  · have hnopad := isPadOp_eq_false_of_isModeOp hmode.1
    exact .inr (.inl ⟨by tauto, rfl⟩)
  · exact .inl ⟨by tauto, rfl⟩
  · exact .inr (.inr ⟨by tauto, by tauto, exists_commandOf (by omega) _ _⟩)

theorem decode_of_illegalWord {w : Word} (h : IllegalWord w) : decode w = .illegal := by
  obtain ⟨-, hdec⟩ | ⟨huns, -⟩ | ⟨hno, -⟩ := decode_cases w
  · exact hdec
  · exact absurd huns (not_unsupportedWord_of_illegalWord h)
  · exact absurd h hno

theorem decode_of_unsupportedWord {w : Word} (h : UnsupportedWord w) : decode w = .unsupported := by
  obtain ⟨hill, -⟩ | ⟨-, hdec⟩ | ⟨-, hno, -⟩ := decode_cases w
  · exact absurd h (not_unsupportedWord_of_illegalWord hill)
  · exact hdec
  · exact absurd h hno

theorem exists_decode_of_legal {w : Word} (hill : ¬ IllegalWord w) (huns : ¬ UnsupportedWord w) :
    ∃ i, decode w = .command i := by
  obtain ⟨h, -⟩ | ⟨h, -⟩ | ⟨-, -, h⟩ := decode_cases w
  · exact absurd h hill
  · exact absurd h huns
  · exact h

/-- The completion of a word that is no command scrubs where its OP asks for it (R27, R65). -/
theorem complete_wordOp (code : ErrCode) (s : State) :
    complete (wordOp s.lat.cmd) code s = if CipherWord s.lat.cmd then endCipher code s else endPlain code s := by
  split_ifs with hc
  · exact complete_cipher _ _ _ ((isCipherOp_iff _).mpr hc)
  · exact complete_plain _ _ _ (eq_false_of_ne_true (mt (isCipherOp_iff _).mp hc))

/-- Settles O4: the step is the completion, and the latched word is of the kind that R65 lists. -/
theorem errorEncodingsComplete : Obligations.ErrorEncodingsComplete := by
  intro s hb hs
  rw [step_of_busy hb hs]
  refine ⟨fun h => ?_, fun h => ?_, fun hill huns => ?_⟩
  · rw [completion, decode_of_illegalWord h]
    exact congrArg _ (complete_wordOp .illegalCommand s)
  · rw [completion, decode_of_unsupportedWord h]
    have hcipher : CipherWord s.lat.cmd := .inr (.inr h.1)
    exact congrArg _ ((complete_wordOp .unsupportedMode s).trans (if_pos hcipher))
  · obtain ⟨i, hi⟩ := exists_decode_of_legal hill huns
    exact ⟨i, wf_of_decode hi, encode_of_decode hi, completion_of_command hi⟩

/-! ### The words of R63 -/

/-- A word with MODE 0 is its OP in bits 3:0 and its BS in bits 15:8, bit by bit (R61). -/
theorem commandWord_eq_or (op : BitVec 4) (bs : BitVec 8) :
    commandWord op 0 bs = op.zeroExtend 32 ||| (bs.zeroExtend 32 <<< 8) := by
  unfold commandWord
  ext j hj
  grind

theorem encode_pad (bs : BitVec 8) : encode (.pad bs) = 0x00000007 ||| (bs.zeroExtend 32 <<< 8) :=
  commandWord_eq_or 7 bs

theorem encode_unpad (bs : BitVec 8) : encode (.unpad bs) = 0x00000008 ||| (bs.zeroExtend 32 <<< 8) :=
  commandWord_eq_or 8 bs

theorem decode_pad_word {bs : BitVec 8} (h : bs ≠ 0) :
    decode (0x00000007 ||| (bs.zeroExtend 32 <<< 8)) = .command (.pad bs) := by
  rw [← encode_pad]
  exact decode_encode (bne_iff_ne.mpr h)

theorem decode_unpad_word {bs : BitVec 8} (h : bs ≠ 0) :
    decode (0x00000008 ||| (bs.zeroExtend 32 <<< 8)) = .command (.unpad bs) := by
  rw [← encode_unpad]
  exact decode_encode (bne_iff_ne.mpr h)

/-- Settles O3: each full word is the word of its command, and a reserved OP is on R65's list. -/
theorem opcodeMapWords : Obligations.OpcodeMapWords := by
  refine ⟨⟨decode_encode (i := .nop) rfl, decode_encode (i := .keyld) rfl, decode_encode (i := .ivld) rfl,
    decode_encode (i := .encb) rfl, decode_encode (i := .decb) rfl, decode_encode (i := .ecbenc) rfl,
    decode_encode (i := .cfbenc) rfl, decode_encode (i := .ecbdec) rfl, decode_encode (i := .cfbdec) rfl,
    decode_encode (i := .zeroize) rfl, decode_pad_word (bs := 8) (by decide), decode_unpad_word (bs := 8) (by decide)⟩,
    fun b hb => ⟨decode_pad_word hb, decode_unpad_word hb⟩,
    fun w hop => decode_of_illegalWord (.inr (.inr (.inl hop))), ?_⟩
  refine ⟨rfl, rfl, rfl, rfl, fun i hi => ?_, fun b => ⟨rfl, rfl⟩⟩
  fin_cases hi <;> rfl

/-! ### The step and its command -/

/-- The codes 0 to 4 and 7 to 11 of R182. -/
theorem mem_engineCodes {code : ErrCode} (h : isEngineCode code = true) :
    code ∈ [ErrCode.success, .invalidKeyLength, .invalidIvLength, .unsupportedMode, .invalidPadding,
      .missingIv, .illegalCommand, .rangeError, .keyNotLoaded, .invalidBlockLength] := by
  revert h
  cases code <;> decide

/-- Settles O10: the step is one completion with an engine code. -/
theorem completionEndsTheCommand : Obligations.CompletionEndsTheCommand := by
  intro s hb hs
  obtain ⟨op, t, ht, code, u, hcode, -, rfl⟩ := completion_completes s
  refine ⟨_, (step_of_busy hb hs).trans ht, complete_busy .., complete_done .., ?_⟩
  rw [complete_errcode]
  exact mem_engineCodes hcode

/-- The engine's turn in BUSY is the completion, unless the command awaits a draw that the source does not answer (R16). -/
theorem engineTurn_of_busy {b : Bool} {s : State} (hb : s.status.busy = true) (h : b = true ∨ awaitsDraw s = false) :
    engineTurn b s = completion s := by
  obtain ⟨hidle, -⟩ | ⟨-, hno, hwait, -⟩ | ⟨-, -, ht⟩ := engineTurn_cases b s
  · exact absurd hb (ne_true_of_eq_false hidle)
  · simp [hno, hwait] at h
  · exact ht

/-- Settles O5: the step is the engine's turn, which is the completion of the decoded command. -/
theorem stepRunsDecodedCommand : Obligations.StepRunsDecodedCommand := by
  intro s i hb hi
  refine ⟨fun hs => (step_of_busy hb hs).trans (completion_of_command hi), fun b rest hs hdraw => ?_⟩
  rw [step_of_sched_engine hs, engineTurn_of_busy (s := { s with sched := rest }) hb hdraw]
  exact completion_of_command (s := { s with sched := rest }) hi

end Sys2Proof.Machine
end

section
/-!
PAD and UNPAD: their checks in order, and what a command that ends with an output leaves (spec 43_padding_commands.md R132,
R133; 60_exceptions.md R183).
-/
namespace Sys2Proof.Machine

/-! ### Regions and outputs -/

/-- Regions that do not fit fail the region checks (R45, R46). -/
theorem regionsOk_eq_false {s : State} {i o : Region} (h : ¬ RegionsFit s i.start i.len o.start o.len) :
    regionsOk s i o = false := eq_false_of_ne_true (mt (regionsOk_iff s i o).mp h)

/-- A state whose BUF is a MemWrite of `out` at `d` holds that output there and every other byte as before (R47). -/
theorem wroteOutput_of_buf {s t : State} {d : Nat} {out : Bytes} (hb : t.buf = Memory.writeAll s.buf d out)
    (he : t.epoch = s.epoch) : WroteOutput s t d out :=
  ⟨(memRead_congr (s := memWrite s d out) hb he d out.length).trans (memRead_memWrite s d out),
    fun a ha => (byteAt_congr (s := memWrite s d out) hb he a).trans (byteAt_memWrite_outside s d a out ha)⟩

/-- The length of a region in range is a 32-bit number, so RESLEN holds it exactly (R6, R20). -/
theorem toNat_reslen_of_fits {s : State} {d n : Nat} (h : d + n ≤ s.bufBytes) : (BitVec.ofNat 32 n).toNat = n := by
  have := bufBytes_le s
  rw [BitVec.toNat_ofNat]
  omega

/-- A command without the scrub that succeeds with an output leaves that output, its length in RESLEN, and nothing else
(R20, R47, R180). -/
theorem endPlain_writeOutput {s : State} {out : Bytes} (hfit : s.lat.dst.toNat + out.length ≤ s.bufBytes) :
    ∃ t, endPlain .success (writeOutput out s) = t ∧ WroteOutput s t s.lat.dst.toNat out ∧
      t = { endPlain .success s with buf := t.buf, reslen := BitVec.ofNat 32 out.length } ∧
      t.reslen.toNat = out.length :=
  ⟨_, rfl, wroteOutput_of_buf rfl rfl, rfl, toNat_reslen_of_fits hfit⟩

/-! ### The ends of PAD and UNPAD -/

section
variable {bs : BitVec 8} {s : State}

theorem exec_pad_zero : exec (.pad 0) s = .next (endPlain .illegalCommand s) := rfl

theorem exec_pad_rangeError (hbs : bs ≠ 0)
    (hfit : regionsOk s (inputRegion s.lat) (paddedRegion s.lat bs.toNat) = false) :
    exec (.pad bs) s = .next (endPlain .rangeError s) := by
  rw [← complete_plain (opField (.pad bs)) _ _ rfl, exec, execPad, if_neg hbs, if_pos hfit]

theorem exec_pad_success (hbs : bs ≠ 0)
    (hfit : regionsOk s (inputRegion s.lat) (paddedRegion s.lat bs.toNat) = true) :
    exec (.pad bs) s = .next (endPlain .success (writeOutput (padBytes (inputBytes s) bs.toNat) s)) := by
  rw [← complete_plain (opField (.pad bs)) _ _ rfl, exec, execPad, if_neg hbs, if_neg (ne_false_of_eq_true hfit)]

theorem exec_unpad_zero : exec (.unpad 0) s = .next (endPlain .illegalCommand s) := rfl

theorem exec_unpad_rangeError (hbs : bs ≠ 0) (hfit : regionsOk s (inputRegion s.lat) (sameRegion s.lat) = false) :
    exec (.unpad bs) s = .next (endPlain .rangeError s) := by
  rw [← complete_plain (opField (.unpad bs)) _ _ rfl, exec, execUnpad, if_neg hbs, if_pos hfit]

theorem exec_unpad_invalidPadding (hbs : bs ≠ 0) (hfit : regionsOk s (inputRegion s.lat) (sameRegion s.lat) = true)
    (hout : unpadBytes (inputBytes s) bs.toNat = none) :
    exec (.unpad bs) s = .next (endPlain .invalidPadding s) := by
  rw [← complete_plain (opField (.unpad bs)) _ _ rfl, exec, execUnpad, if_neg hbs, if_neg (ne_false_of_eq_true hfit),
    hout]

theorem exec_unpad_success {out : Bytes} (hbs : bs ≠ 0)
    (hfit : regionsOk s (inputRegion s.lat) (sameRegion s.lat) = true)
    (hout : unpadBytes (inputBytes s) bs.toNat = some out) :
    exec (.unpad bs) s = .next (endPlain .success (writeOutput out s)) := by
  rw [← complete_plain (opField (.unpad bs)) _ _ rfl, exec, execUnpad, if_neg hbs, if_neg (ne_false_of_eq_true hfit),
    hout]

end

/-- Settles O18, by PAD's checks in order; the padded string is as long as the region checked. -/
theorem padAppendsPadding : Obligations.PadAppendsPadding := by
  intro bs s a d n m
  refine ⟨encode_pad bs, fun hbs => hbs ▸ exec_pad_zero,
    fun hbs hfit => exec_pad_rangeError hbs (regionsOk_eq_false hfit), fun hbs hfit => ?_⟩
  have hok : regionsOk s (inputRegion s.lat) (paddedRegion s.lat bs.toNat) = true := (regionsOk_iff _ _ _).mpr hfit
  have hlen : (padBytes (memRead s a n) bs.toNat).length = m := by
    rw [padBytes_length, memRead_length]
    rfl
  obtain ⟨-, hout, -⟩ := hfit
  rw [← hlen] at hout ⊢
  obtain ⟨t, ht, hspec⟩ := endPlain_writeOutput hout
  exact ⟨t, (exec_pad_success hbs hok).trans (congrArg _ ht), rfl, hspec⟩

/-- Settles O19, by UNPAD's checks in order; the unpadded string is no longer than the input. -/
theorem unpadRemovesPadding : Obligations.UnpadRemovesPadding := by
  intro bs s a d n
  have hok (hfit : RegionsFit s a n d n) : regionsOk s (inputRegion s.lat) (sameRegion s.lat) = true :=
    (regionsOk_iff _ _ _).mpr hfit
  refine ⟨encode_unpad bs, fun hbs => hbs ▸ exec_unpad_zero,
    fun hbs hfit => exec_unpad_rangeError hbs (regionsOk_eq_false hfit),
    fun hbs hfit hnone => exec_unpad_invalidPadding hbs (hok hfit) hnone, fun out hbs hfit hsome => ?_⟩
  have hlen : out.length ≤ n := by simpa using unpadBytes_length_le hsome
  have hout : d + out.length ≤ s.bufBytes := (Nat.add_le_add_left hlen d).trans hfit.2.1
  obtain ⟨t, ht, hspec⟩ := endPlain_writeOutput hout
  exact ⟨t, (exec_unpad_success hbs (hok hfit) hsome).trans (congrArg _ ht), hspec⟩

end Sys2Proof.Machine
end

section
/-!
Table permutation and the bits of byte strings: what each bit of a permuted value is, when one table undoes another, and
the rotation of a key half (spec 40_des_primitives.md R80 to R84).
-/
namespace Sys2Proof.Machine

/-! ### Table permutation -/

/-- Bit i of the number with the given bits, counted from the least significant one. -/
theorem testBit_bitsToNat (bs : List Bool) (i : Nat) : (bitsToNat bs).testBit i = bs.reverse.getD i false := by
  induction bs using List.reverseRecOn generalizing i with
  | nil => simp [bitsToNat]
  | append_singleton bs b ih =>
    have hbit : bitsToNat (bs ++ [b]) = Nat.bit b (bitsToNat bs) := by simp [bitsToNat, Nat.bit_val]
    rw [hbit, List.reverse_concat]
    cases i with
    | zero => exact Nat.testBit_bit_zero b _
    | succ i => exact (Nat.testBit_bit_succ i b _).trans (ih i)

section
variable {n m : Nat} {table : List Nat}

/-- R82 in DES bit numbers: DES bit j of the permuted value is DES bit T[j]. -/
theorem desBit_permute (v : BitVec n) {j : Nat} (hlen : table.length = m) (h1 : 1 ≤ j) (hm : j ≤ m) :
    desBit (permute m v table) j = desBit v (table.getD (j - 1) 0) := by
  have hidx : table.length - 1 - (m - j) = j - 1 := by omega
  rw [desBit, permute, BitVec.getLsbD_ofNat, testBit_bitsToNat, ← List.map_reverse, decide_eq_true (by omega),
    Bool.true_and, List.getD_eq_getElem _ _ (by simp; omega), List.getElem_map, ← List.getD_eq_getElem _ 0,
    List.getD_reverse _ (by omega), hidx]

theorem permute_congr {v w : BitVec n} (h : ∀ x ∈ table, desBit v x = desBit w x) :
    permute m v table = permute m w table := by
  rw [permute, permute, List.map_congr_left h]

theorem eq_of_desBit_eq {v w : BitVec n} (h : ∀ j, 1 ≤ j → j ≤ n → desBit v j = desBit w j) : v = w := by
  refine BitVec.eq_of_getLsbD_eq fun i hi => ?_
  have hij : n - (n - i) = i := by omega
  simpa [desBit, hij] using h (n - i) (by omega) (by omega)

/-- A table `u` undoes `t`: it takes each DES bit from the place where `t` puts it. -/
def Undoes (u t : List Nat) (n : Nat) : Prop :=
  ∀ i < n, 1 ≤ u.getD i 0 ∧ u.getD i 0 ≤ n ∧ t.getD (u.getD i 0 - 1) 0 = i + 1

theorem permute_permute_of_undoes {t u : List Nat} (ht : t.length = n) (hu : u.length = n) (h : Undoes u t n)
    (v : BitVec n) : permute n (permute n v t) u = v := by
  refine eq_of_desBit_eq fun j h1 hn => ?_
  obtain ⟨hpos, hle, hback⟩ := h (j - 1) (by omega)
  rw [desBit_permute _ hu h1 hn, desBit_permute _ ht hpos hle, hback, Nat.sub_add_cancel h1]

end

/-- Settles O28: DES bit j of the permuted value. -/
theorem permuteSelectsBits : Obligations.PermuteSelectsBits := fun _ v _ _ _ h1 hlen => desBit_permute v rfl h1 hlen

theorem permute_tableIPinv_tableIP (v : Block) : permute 64 (permute 64 v tableIP) tableIPinv = v :=
  permute_permute_of_undoes (n := 64) rfl rfl (by unfold Undoes; decide) v

theorem permute_tableIP_tableIPinv (v : Block) : permute 64 (permute 64 v tableIPinv) tableIP = v :=
  permute_permute_of_undoes (n := 64) rfl rfl (by unfold Undoes; decide) v

/-- Settles O29: each of the two tables takes every bit from where the other puts it. -/
theorem finalPermutationInvertsInitial : Obligations.FinalPermutationInvertsInitial := fun v =>
  ⟨permute_tableIPinv_tableIP v, permute_tableIP_tableIPinv v⟩

/-! ### Rotation -/

section
variable (v : BitVec 28) {s t : Nat}

theorem getLsbD_rotl28 {i : Nat} (hs : s ≤ 28) (hi : i < 28) :
    (rotl28 v s).getLsbD i = v.getLsbD ((i + (28 - s)) % 28) := by
  rw [rotl28, BitVec.getLsbD_or, BitVec.getLsbD_shiftLeft, BitVec.getLsbD_ushiftRight]
  by_cases h : i < s
  · have hmod : (i + (28 - s)) % 28 = 28 - s + i := by omega
    simp [h, hmod]
  · have hmod : (i + (28 - s)) % 28 = i - s := by omega
    have hpast : v.getLsbD (28 - s + i) = false := BitVec.getLsbD_of_ge _ _ (by omega)
    simp [h, hmod, hi, hpast]

theorem rotl28_rotl28 (h : s + t ≤ 28) : rotl28 (rotl28 v s) t = rotl28 v (s + t) := by
  refine BitVec.eq_of_getLsbD_eq fun i hi => ?_
  rw [getLsbD_rotl28 _ (by omega) hi, getLsbD_rotl28 _ (by omega) (by omega), getLsbD_rotl28 _ h hi]
  congr 1
  omega

@[simp] theorem rotl28_zero : rotl28 v 0 = v := by simp [rotl28, BitVec.ushiftRight_eq_zero]

@[simp] theorem rotl28_width : rotl28 v 28 = v := by simp [rotl28]

end

/-! ### The bits of a byte string -/

/-- R48: bit i of a 64-bit value is bit i mod 8 of its byte, the most significant byte first. -/
theorem getLsbD_eq_bytes8 (v : Block) {i : Nat} (hi : i < 64) :
    v.getLsbD i = ((bytes8 v).getD (7 - i / 8) 0).getLsbD (i % 8) := by
  have hbytes : bytes8 v = (List.range 8).map (fun k => v.extractLsb' (56 - 8 * k) 8) := rfl
  have hidx : 56 - 8 * (7 - i / 8) + i % 8 = i := by omega
  rw [hbytes, List.getD_eq_getElem _ _ (by simp; omega), List.getElem_map, List.getElem_range, BitVec.getLsbD_extractLsb',
    decide_eq_true (by omega), Bool.true_and, hidx]

theorem getLsbD_be64 {bs : Bytes} (h : bs.length = 8) {i : Nat} (hi : i < 64) :
    (be64 bs).getLsbD i = (bs.getD (7 - i / 8) 0).getLsbD (i % 8) := by
  rw [getLsbD_eq_bytes8 _ hi, bytes8_be64 h]

/-- The value of the bytes of a 64-bit value is that value (R48). -/
theorem be64_bytes8 (v : Block) : be64 (bytes8 v) = v :=
  BitVec.eq_of_getLsbD_eq fun _ hi => (getLsbD_be64 rfl hi).trans (getLsbD_eq_bytes8 v hi).symm

end Sys2Proof.Machine
end

section
/-!
The key schedule: the halves of round r are those of PC-1 rotated by the shifts so far, and no parity bit reaches a round
key (spec 40_des_primitives.md R87 to R92; 41_key_iv_commands.md R114).
-/
namespace Sys2Proof.Machine

/-! ### The shifts -/

/-- The sum of the shifts of rounds 1 to r (R90). -/
def totalShift (r : Nat) : Nat := ((List.range r).map (fun k => shiftOf (k + 1))).sum

theorem totalShift_succ (r : Nat) : totalShift (r + 1) = totalShift r + shiftOf (r + 1) := List.sum_range_succ _ r

theorem totalShift_le {r : Nat} (h : r ≤ 16) : totalShift r ≤ 28 := by
  revert r; decide

theorem keyHalves_succ (kv : Block) (r : Nat) : keyHalves kv (r + 1) =
    (rotl28 (keyHalves kv r).1 (shiftOf (r + 1)), rotl28 (keyHalves kv r).2 (shiftOf (r + 1))) := rfl

/-- Both halves after r rounds are those before round 1, rotated by the shifts so far (R91). -/
theorem keyHalves_eq_rotl28 (kv : Block) {r : Nat} (h : r ≤ 16) :
    keyHalves kv r = (rotl28 (keyHalves kv 0).1 (totalShift r), rotl28 (keyHalves kv 0).2 (totalShift r)) := by
  induction r with
  | zero => simp [totalShift]
  | succ r ih =>
    have hle : totalShift r + shiftOf (r + 1) ≤ 28 := totalShift_succ r ▸ totalShift_le h
    rw [keyHalves_succ, ih (by omega), rotl28_rotl28 _ hle, rotl28_rotl28 _ hle, ← totalShift_succ]

/-- Settles O30: after round 16 each half has been rotated by its width. -/
theorem shiftScheduleReturns : Obligations.ShiftScheduleReturns := by
  have htotal : totalShift 16 = 28 := by decide
  refine ⟨by decide, htotal, fun kv => ?_⟩
  rw [keyHalves_eq_rotl28 kv le_rfl, htotal, rotl28_width, rotl28_width]

/-! ### Parity bits -/

/-- PC-1 selects bits of the key, and none of them is a parity bit (R87). -/
theorem not_parity_of_mem_tablePC1 {x : Nat} (h : x ∈ tablePC1) : 64 - x < 64 ∧ (64 - x) % 8 ≠ 0 := by
  revert x; decide

/-- R92 (a): keys that agree but for their parity bits have the same round keys, as PC-1 selects no parity bit. -/
theorem keySchedule_congr {a b : Block} (h : ∀ i, i < 64 → i % 8 ≠ 0 → a.getLsbD i = b.getLsbD i) :
    keySchedule a = keySchedule b := by
  have hpc1 : permute 56 a tablePC1 = permute 56 b tablePC1 := permute_congr fun x hx =>
    have ⟨hlt, hpar⟩ := not_parity_of_mem_tablePC1 hx
    h _ hlt hpar
  have hhalves (r : Nat) : keyHalves a r = keyHalves b r := by
    induction r with
    | zero => rw [keyHalves, keyHalves, hpc1]
    | succ r ih => rw [keyHalves_succ, keyHalves_succ, ih]
  simp only [keySchedule, roundKeyOf, hhalves]

/-- Settles O31: the mask reaches no bit but the parity bits. -/
theorem keyScheduleIgnoresParityBits : Obligations.KeyScheduleIgnoresParityBits := fun kv m hm =>
  keySchedule_congr fun i hi hpar => by rw [BitVec.getLsbD_xor, hm i hi hpar, Bool.xor_false]

theorem oddByte_of_even {b : Byte} (h : popcount b % 2 = 0) : oddByte b = b ^^^ 1 := if_neg (by omega)

/-- The adjustment changes no bit of a byte but the lowest (R114). -/
theorem getLsbD_oddByte (b : Byte) {i : Nat} (h : i ≠ 0) : (oddByte b).getLsbD i = b.getLsbD i := by
  obtain hodd | heven := (Nat.mod_two_eq_zero_or_one (popcount b)).symm
  · rw [oddByte_of_odd hodd]
  · simp [oddByte_of_even heven, BitVec.getLsbD_one, h]

theorem keySchedule_parityAdjust {bs : Bytes} (h : bs.length = 8) :
    keySchedule (be64 (parityAdjust bs)) = keySchedule (be64 bs) := by
  refine keySchedule_congr fun i hi hpar => ?_
  have hbyte : 7 - i / 8 < bs.length := by omega
  rw [getLsbD_be64 (by simpa using h) hi, getLsbD_be64 h hi, List.getD_eq_getElem _ _ (by simpa using hbyte),
    List.getD_eq_getElem _ _ hbyte]
  simp only [parityAdjust, List.getElem_map]
  exact getLsbD_oddByte _ hpar

/-- Settles O32: the two cases of the adjustment of a byte, and the round keys from the bits it keeps. -/
theorem parityAdjustMakesOddBytes : Obligations.ParityAdjustMakesOddBytes :=
  ⟨fun b => ⟨oddByte_odd b, oddByte_of_odd, oddByte_of_even⟩,
    fun bs h => ⟨rfl, parityAdjust_parityAdjust bs, keySchedule_parityAdjust h⟩⟩

end Sys2Proof.Machine
end

section
/-!
The block core: a round run on the exchanged halves undoes itself, so the rounds in reverse order undo the rounds (spec
40_des_primitives.md R98 to R100).
-/
namespace Sys2Proof.Machine

theorem desRound_swap_desRound (lr : BitVec 32 × BitVec 32) (k : RoundKey) :
    desRound (desRound lr k).swap k = lr.swap := by
  simp [desRound, Prod.swap]

/-- The rounds in reverse order, from the exchanged halves, lead back to the exchanged halves they began with. -/
theorem foldl_desRound_reverse (ks : List RoundKey) (lr : BitVec 32 × BitVec 32) :
    ks.reverse.foldl desRound (ks.foldl desRound lr).swap = lr.swap := by
  induction ks generalizing lr with
  | nil => rfl
  | cons k ks ih =>
    rw [List.foldl_cons, List.reverse_cons, List.foldl_append, ih]
    exact desRound_swap_desRound lr k

/-- Two runs of the block core that take the round keys in opposite orders undo each other (R99). -/
theorem desBlock_desBlock {rk : Vector RoundKey 16} {d e : Dir} (h : keyOrder rk e = (keyOrder rk d).reverse)
    (x : Block) : desBlock (desBlock x rk d) rk e = x := by
  have hback := foldl_desRound_reverse (keyOrder rk d)
    ((permute 64 x tableIP).extractLsb' 32 32, (permute 64 x tableIP).extractLsb' 0 32)
  rw [← h, Prod.swap, Prod.swap] at hback
  simp only [desBlock, permute_tableIP_tableIPinv, BitVec.extractLsb'_append_eq_left, BitVec.extractLsb'_append_eq_right,
    hback]
  rw [BitVec.extractLsb'_append_extractLsb', permute_tableIPinv_tableIP]

/-- Settles O34: the two directions take the round keys in opposite orders. -/
theorem decryptionInvertsEncryption : Obligations.DecryptionInvertsEncryption := by
  intro rk
  have hdec (x : Block) : desBlock (desBlock x rk .enc) rk .dec = x := desBlock_desBlock rfl x
  have henc (x : Block) : desBlock (desBlock x rk .dec) rk .enc = x := desBlock_desBlock (List.reverse_reverse _).symm x
  refine ⟨fun x => ⟨hdec x, henc x⟩, fun b hb => ⟨?_, ?_⟩⟩
  · rw [decryptBlock, encryptBlock, be64_bytes8, hdec, bytes8_be64 hb]
  · rw [encryptBlock, decryptBlock, be64_bytes8, henc, bytes8_be64 hb]

/-- The source's known-answer test on 64-bit values (R99). -/
theorem desBlock_knownAnswer :
    desBlock 0x0123456789ABCDEF (keySchedule 0x133457799BBCDFF1) .enc = 0x85E813540F0AB405 := by decide +kernel

theorem encryptBlock_knownAnswer :
    encryptBlock (keySchedule 0x133457799BBCDFF1) [0x01, 0x23, 0x45, 0x67, 0x89, 0xAB, 0xCD, 0xEF] =
      [0x85, 0xE8, 0x13, 0x54, 0x0F, 0x0A, 0xB4, 0x05] :=
  congrArg bytes8 desBlock_knownAnswer

/-- Settles O33: the examples are evaluated, and decryption undoes the known encryption. -/
theorem knownAnswers : Obligations.KnownAnswers := by
  refine ⟨by decide +kernel, by decide +kernel, by decide +kernel, by decide +kernel, by decide +kernel,
    desBlock_knownAnswer, encryptBlock_knownAnswer, ?_⟩
  rw [← encryptBlock_knownAnswer]
  exact ((decryptionInvertsEncryption _).2 _ rfl).1

end Sys2Proof.Machine
end

section
/-!
NOP, KEYLD, IVLD and ZEROIZE: the checks of the two loads in order, and what each end leaves. None of the four scrubs, so
each leaves the plain completion over its own writes (spec 41_key_iv_commands.md R110 to R113; 60_exceptions.md R183).
-/
namespace Sys2Proof.Machine

theorem inRange_eq_false_iff (s : State) (r : Region) : inRange s r = false ↔ s.bufBytes < r.start + r.len := by
  rw [← Bool.not_eq_true, inRange_iff, Nat.not_le]

/-! ### The checks of KEYLD and IVLD in order -/

section
variable {s : State}

theorem exec_keyld_rangeError (hrange : inRange s (inputRegion s.lat) = false) :
    exec .keyld s = .next (endPlain .rangeError (failKey s)) := by
  rw [← complete_plain (opField .keyld) _ _ rfl, exec, execKeyld, if_pos hrange]

theorem exec_keyld_invalidKeyLength (hrange : inRange s (inputRegion s.lat) = true) (hlen : s.lat.len ≠ 8) :
    exec .keyld s = .next (endPlain .invalidKeyLength (failKey s)) := by
  rw [← complete_plain (opField .keyld) _ _ rfl, exec, execKeyld, if_neg (ne_false_of_eq_true hrange), if_pos hlen]

theorem exec_keyld_success (hrange : inRange s (inputRegion s.lat) = true) (hlen : s.lat.len = 8) :
    exec .keyld s =
      .next (endPlain .success (loadKey (be64 (parityAdjust (memRead s s.lat.src.toNat 8))) s)) := by
  rw [← complete_plain (opField .keyld) _ _ rfl, exec, execKeyld, if_neg (ne_false_of_eq_true hrange),
    if_neg (not_not.mpr hlen)]

theorem exec_ivld_rangeError (hrange : inRange s (inputRegion s.lat) = false) :
    exec .ivld s = .next (endPlain .rangeError (failIv s)) := by
  rw [← complete_plain (opField .ivld) _ _ rfl, exec, execIvld, if_pos hrange]

theorem exec_ivld_invalidIvLength (hrange : inRange s (inputRegion s.lat) = true) (hlen : s.lat.len ≠ 8) :
    exec .ivld s = .next (endPlain .invalidIvLength (failIv s)) := by
  rw [← complete_plain (opField .ivld) _ _ rfl, exec, execIvld, if_neg (ne_false_of_eq_true hrange), if_pos hlen]

theorem exec_ivld_success (hrange : inRange s (inputRegion s.lat) = true) (hlen : s.lat.len = 8) :
    exec .ivld s = .next (endPlain .success (loadIv (be64 (memRead s s.lat.src.toNat 8)) s)) := by
  rw [← complete_plain (opField .ivld) _ _ rfl, exec, execIvld, if_neg (ne_false_of_eq_true hrange),
    if_neg (not_not.mpr hlen)]

end

/-! ### The commands without a check -/

theorem exec_nop (s : State) : exec .nop s = .next (endPlain .success (setReslen 0 s)) := by
  rw [← complete_plain (opField .nop) _ _ rfl, exec, execNop]

theorem exec_zeroize (s : State) : exec .zeroize s = .next (endPlain .success (zeroizeState s)) := by
  rw [← complete_plain (opField .zeroize) _ _ rfl, exec, execZeroize]

/-! ### The obligations -/

/-- Settles O12: RESLEN is NOP's one write of its own. -/
theorem nopOnlyCompletes : Obligations.NopOnlyCompletes := ⟨rfl, exec_nop⟩

/-- Settles O13, by KEYLD's checks in order. -/
theorem keyldLoadsTheKey : Obligations.KeyldLoadsTheKey := by
  refine ⟨rfl, fun s => ⟨fun hout => ?_, fun hin hlen => ?_, fun hin hlen => ?_⟩⟩
  · exact exec_keyld_rangeError ((inRange_eq_false_iff _ _).mpr hout)
  · exact exec_keyld_invalidKeyLength ((inRange_iff _ _).mpr hin) (ne_of_apply_ne BitVec.toNat hlen)
  · exact exec_keyld_success ((inRange_iff _ _).mpr hin) (BitVec.eq_of_toNat_eq hlen)

/-- Settles O14, by IVLD's checks in order. -/
theorem ivldLoadsTheIv : Obligations.IvldLoadsTheIv := by
  refine ⟨rfl, fun s => ⟨fun hout => ?_, fun hin hlen => ?_, fun hin hlen => ?_⟩⟩
  · exact exec_ivld_rangeError ((inRange_eq_false_iff _ _).mpr hout)
  · exact exec_ivld_invalidIvLength ((inRange_iff _ _).mpr hin) (ne_of_apply_ne BitVec.toNat hlen)
  · exact exec_ivld_success ((inRange_iff _ _).mpr hin) (BitVec.eq_of_toNat_eq hlen)

/-- Settles O15: the key and IV state and RESLEN are ZEROIZE's own writes. -/
theorem zeroizeClearsKeyState : Obligations.ZeroizeClearsKeyState := ⟨rfl, exec_zeroize⟩

end Sys2Proof.Machine
end

section
/-!
ENCB and DECB: one rule for every single-block command, whose checks come in order and whose every end scrubs (spec
42_block_commands.md R120 to R122; 60_exceptions.md R183).
-/
namespace Sys2Proof.Machine

/-- A cipher command that succeeds with an output leaves that output, its length in RESLEN, and the scrub (R20, R27, R47,
R180). -/
theorem endCipher_writeOutput (s : State) (out : Bytes) :
    ∃ t, endCipher .success (writeOutput out s) = t ∧ WroteOutput s t s.lat.dst.toNat out ∧
      t = { endCipher .success s with buf := t.buf, reslen := BitVec.ofNat 32 out.length } :=
  ⟨_, rfl, wroteOutput_of_buf rfl rfl, rfl⟩

/-! ### The checks of a single-block command in order -/

section
variable {op : BitVec 4} {f : Vector RoundKey 16 → Bytes → Bytes} {s : State}

theorem runBlock_rangeError (hop : isCipherOp op = true)
    (hfit : regionsOk s (inputRegion s.lat) (sameRegion s.lat) = false) :
    runBlock op f s = endCipher .rangeError s := by
  rw [← complete_cipher op _ _ hop, runBlock, if_pos hfit]

theorem runBlock_invalidBlockLength (hop : isCipherOp op = true)
    (hfit : regionsOk s (inputRegion s.lat) (sameRegion s.lat) = true) (hlen : s.lat.len ≠ 8) :
    runBlock op f s = endCipher .invalidBlockLength s := by
  rw [← complete_cipher op _ _ hop, runBlock, if_neg (ne_false_of_eq_true hfit), if_pos hlen]

theorem runBlock_keyNotLoaded (hop : isCipherOp op = true)
    (hfit : regionsOk s (inputRegion s.lat) (sameRegion s.lat) = true) (hlen : s.lat.len = 8)
    (hkey : s.status.keyv = false) : runBlock op f s = endCipher .keyNotLoaded s := by
  rw [← complete_cipher op _ _ hop, runBlock, if_neg (ne_false_of_eq_true hfit), if_neg (not_not.mpr hlen), if_pos hkey]

theorem runBlock_success (hop : isCipherOp op = true)
    (hfit : regionsOk s (inputRegion s.lat) (sameRegion s.lat) = true) (hlen : s.lat.len = 8)
    (hkey : s.status.keyv = true) :
    runBlock op f s = endCipher .success (writeOutput (f s.rk (memRead s s.lat.src.toNat 8)) s) := by
  rw [← complete_cipher op _ _ hop, runBlock, if_neg (ne_false_of_eq_true hfit), if_neg (not_not.mpr hlen),
    if_neg (ne_false_of_eq_true hkey)]

end

/-- A cipher command that runs a block function with eight-byte results meets the rule of single-block commands. -/
theorem blockRule_of_runBlock {i : Instr} {f : Vector RoundKey 16 → Bytes → Bytes} {s : State}
    (hexec : exec i s = .next (runBlock (opField i) f s)) (hop : isCipherOp (opField i) = true)
    (hf : ∀ rk b, (f rk b).length = 8) : BlockRule i f s := by
  unfold BlockRule
  intro a d n
  have hok (hfit : RegionsFit s a n d n) : regionsOk s (inputRegion s.lat) (sameRegion s.lat) = true :=
    (regionsOk_iff _ _ _).mpr hfit
  have hlen (hn : n = 8) : s.lat.len = 8 := BitVec.eq_of_toNat_eq hn
  rw [hexec]
  refine ⟨fun hfit => ?_, fun hfit hn => ?_, fun hfit hn hkey => ?_, fun hfit hn hkey => ?_⟩
  · exact congrArg _ (runBlock_rangeError hop (regionsOk_eq_false hfit))
  · exact congrArg _ (runBlock_invalidBlockLength hop (hok hfit) (ne_of_apply_ne BitVec.toNat hn))
  · exact congrArg _ (runBlock_keyNotLoaded hop (hok hfit) (hlen hn) hkey)
  · obtain ⟨t, ht, hwrote, hrest⟩ := endCipher_writeOutput s (f s.rk (memRead s a 8))
    rw [hf] at hrest
    exact ⟨t, congrArg _ ((runBlock_success hop (hok hfit) (hlen hn) hkey).trans ht), hf _ _, hwrote, hrest⟩

/-- Settles O16: ENCB runs EncryptBlock under the rule of single-block commands. -/
theorem encbEncryptsOneBlock : Obligations.EncbEncryptsOneBlock :=
  ⟨rfl, fun _ => blockRule_of_runBlock rfl rfl encryptBlock_length⟩

/-- Settles O17: DECB runs DecryptBlock under the same rule. -/
theorem decbDecryptsOneBlock : Obligations.DecbDecryptsOneBlock :=
  ⟨rfl, fun _ => blockRule_of_runBlock rfl rfl decryptBlock_length⟩

end Sys2Proof.Machine
end

section
/-!
The padding unit on byte strings: the pad count, the padded length, and when unpadding answers
(spec 43_padding_commands.md R130, R131, R134).
-/
namespace Sys2Proof.Machine

/-! ### The pad count and the padded length -/

theorem padCount_pos {bs : Nat} (n : Nat) (hbs : 1 ≤ bs) : 1 ≤ padCount n bs :=
  Nat.sub_pos_of_lt (Nat.mod_lt n hbs)

theorem padCount_le (n bs : Nat) : padCount n bs ≤ bs := Nat.sub_le _ _

/-- The padded length is one block more than the whole blocks of the string (R130). -/
theorem paddedLen_eq_mul {bs : Nat} (n : Nat) (hbs : 1 ≤ bs) : paddedLen n bs = bs * (n / bs + 1) := by
  have hmod := Nat.mod_lt n hbs
  have hdiv := Nat.div_add_mod n bs
  rw [paddedLen, padCount, Nat.mul_succ]
  omega

theorem paddedLen_mod {bs : Nat} (n : Nat) (hbs : 1 ≤ bs) : paddedLen n bs % bs = 0 := by
  rw [paddedLen_eq_mul n hbs, Nat.mul_mod_right]

theorem lt_paddedLen {bs : Nat} (n : Nat) (hbs : 1 ≤ bs) : n < paddedLen n bs :=
  Nat.lt_add_of_pos_right (padCount_pos n hbs)

/-- No multiple of the block size lies above the length and below the padded length (R130). -/
theorem paddedLen_le_of_lt {bs n m : Nat} (hbs : 1 ≤ bs) (hlt : n < m) (hm : m % bs = 0) : paddedLen n bs ≤ m := by
  obtain ⟨k, rfl⟩ := Nat.dvd_of_mod_eq_zero hm
  rw [paddedLen_eq_mul n hbs]
  exact Nat.mul_le_mul_left bs (Nat.div_lt_of_lt_mul hlt)

/-- The pad count is the only number from 1 to the block size that completes the length to a multiple of it (R130). -/
theorem padCount_eq_of_add_mod {bs n x : Nat} (hx : 1 ≤ x) (hle : x ≤ bs) (hmod : (n + x) % bs = 0) :
    padCount n bs = x := by
  have hbs : 1 ≤ bs := hx.trans hle
  have hge : paddedLen n bs ≤ n + x := paddedLen_le_of_lt hbs (by omega) hmod
  have hdvd : bs ∣ n + x - paddedLen n bs :=
    Nat.dvd_sub (Nat.dvd_of_mod_eq_zero hmod) (Nat.dvd_of_mod_eq_zero (paddedLen_mod n hbs))
  have hpos := padCount_pos n hbs
  have hzero : n + x - paddedLen n bs = 0 := Nat.eq_zero_of_dvd_of_lt hdvd (by rw [paddedLen]; omega)
  rw [paddedLen] at hge hzero
  omega

/-! ### When unpadding answers -/

/-- The last byte of a string that ends in `p` bytes of value `p` is `p`. -/
theorem getLastD_append_padTail (d : Bytes) {p : Nat} (hp : 1 ≤ p) (h255 : p ≤ 255) :
    ((d ++ padTail p).getLastD 0).toNat = p := by
  obtain ⟨q, rfl⟩ := Nat.exists_eq_add_of_le' hp
  rw [padTail, List.replicate_succ', ← List.append_assoc, List.getLastD_concat, BitVec.toNat_ofNat]
  omega

/-- What the four conditions of R131 leave: whole blocks that end in one to bs bytes of their own number. -/
theorem unpadBytes_eq_some_iff {d r : Bytes} {bs : Nat} (h255 : bs ≤ 255) :
    unpadBytes d bs = some r ↔ ∃ x, 1 ≤ x ∧ x ≤ bs ∧ d.length % bs = 0 ∧ d = r ++ padTail x := by
  constructor
  · intro h
    simp only [unpadBytes] at h
    split_ifs at h with hempty hmod hx htail
    push Not at hempty hmod hx htail
    obtain ⟨hpos, hle⟩ := hx
    refine ⟨_, Nat.pos_of_ne_zero hpos, hle, hmod, ?_⟩
    rw [← Option.some.inj h, ← htail, List.take_append_drop]
  · rintro ⟨x, hx, hle, hmod, rfl⟩
    have hlast := getLastD_append_padTail r hx (hle.trans h255)
    have hlen : (r ++ padTail x).length = r.length + x := by simp [padTail]
    have hstart : (r ++ padTail x).length - x = r.length := by omega
    simp only [unpadBytes, hlast, hstart, List.drop_left, List.take_left]
    rw [if_neg (by omega), if_neg (not_not.mpr hmod), if_neg (by omega), if_neg (not_not.mpr rfl)]

/-- The padded strings in the form of `unpadBytes_eq_some_iff`: the length fixes the pad count (R130). -/
theorem eq_padBytes_iff {d r : Bytes} {bs : Nat} (hbs : 1 ≤ bs) :
    d = padBytes r bs ↔ ∃ x, 1 ≤ x ∧ x ≤ bs ∧ d.length % bs = 0 ∧ d = r ++ padTail x := by
  constructor
  · rintro rfl
    refine ⟨padCount r.length bs, padCount_pos _ hbs, padCount_le _ _, ?_, rfl⟩
    rw [padBytes_length, paddedLen_mod _ hbs]
  · rintro ⟨x, hx, hle, hmod, rfl⟩
    have hcount : padCount r.length bs = x := padCount_eq_of_add_mod hx hle (by simpa [padTail] using hmod)
    rw [padBytes, hcount]

/-- Settles O35: the pad count's bounds, and the padded length as a multiple of the block size. -/
theorem padReachesNextMultiple : Obligations.PadReachesNextMultiple := by
  intro d bs hbs _
  rw [padBytes_length]
  exact ⟨padCount d.length bs, padCount_pos _ hbs, padCount_le _ _, rfl, rfl, paddedLen_mod _ hbs, lt_paddedLen _ hbs,
    fun _ hlt hm => paddedLen_le_of_lt hbs hlt hm⟩

/-- Settles O37: Unpad's answers and the padded strings have the same form. -/
theorem unpadAcceptsExactlyPaddedStrings : Obligations.UnpadAcceptsExactlyPaddedStrings :=
  fun _ _ _ hbs h255 => (unpadBytes_eq_some_iff h255).trans (eq_padBytes_iff hbs).symm

/-- Settles O36, the case of O37 where the input is the padding itself. -/
theorem unpadInvertsPad : Obligations.UnpadInvertsPad :=
  fun d bs hbs h255 => (unpadAcceptsExactlyPaddedStrings (padBytes d bs) d bs hbs h255).mpr rfl

end Sys2Proof.Machine
end

section
/-!
The mode functions on byte strings, block by block: ECB runs a block function on each block, CFB adds a keystream block
to each segment and goes on with the ciphertext fed back (spec 44_mode_commands.md R145 to R147).
-/
namespace Sys2Proof.Machine

/-! ### Blocks of a byte string -/

/-- Byte i of a string is byte i mod 8 of its block i / 8. -/
theorem getD_eq_blockOf (m : Bytes) (i : Nat) : m.getD i 0 = (blockOf m (i / 8)).getD (i % 8) 0 := by
  have hlt : i % 8 < 8 := Nat.mod_lt i (by decide)
  simp [blockOf, List.getD_eq_getElem?_getD, hlt, Nat.div_add_mod]

/-- Two strings of one length with the same blocks are the same. -/
theorem eq_of_blockOf_eq {x y : Bytes} (hlen : x.length = y.length)
    (h : ∀ j, 8 * j < x.length → blockOf x j = blockOf y j) : x = y := by
  have hseg : segments x = segments y := by
    rw [segments, segments, ← hlen]
    refine List.map_congr_left fun j hj => h j ?_
    have := List.mem_range.mp hj
    omega
  rw [← segments_flatten x, hseg, segments_flatten]

/-! ### ECB -/

/-- A function with eight-byte results, run on each segment, gives a string whose blocks are its results (R145). -/
theorem blockOf_flatMap_segments {f : Bytes → Bytes} (hf : ∀ b, (f b).length = 8) {m : Bytes} {j : Nat}
    (hj : 8 * j < m.length) : blockOf ((segments m).flatMap f) j = f (blockOf m j) := by
  have hm : m ≠ [] := List.length_pos_iff.mp (by omega)
  rw [segments_cons m hm, List.flatMap_cons]
  induction j generalizing m with
  | zero => rw [blockOf_zero, List.take_left' (hf _), blockOf_zero]
  | succ j ih =>
    have hdrop : 8 * j < (m.drop 8).length := by rw [List.length_drop]; omega
    have hne : m.drop 8 ≠ [] := List.length_pos_iff.mp (by omega)
    rw [blockOf_succ, List.drop_left' (hf _), segments_cons _ hne, List.flatMap_cons, ih hdrop hne, blockOf_succ]

/-- On whole blocks, a block function undoes the one that it inverts (R147). -/
theorem flatMap_segments_inverse {f g : Bytes → Bytes} (hf : ∀ b, (f b).length = 8) (hg : ∀ b, (g b).length = 8)
    (hgf : ∀ b, b.length = 8 → g (f b) = b) {m : Bytes} (hm : m.length % 8 = 0) :
    (segments ((segments m).flatMap f)).flatMap g = m := by
  have hlen {h : Bytes → Bytes} (hh : ∀ b, (h b).length = 8) {x : Bytes} (hx : x.length = m.length) :
      ((segments x).flatMap h).length = m.length := by
    rw [flatMap_segments_length hh, hx]
    omega
  refine eq_of_blockOf_eq (hlen hg (hlen hf rfl)) fun j hj => ?_
  rw [hlen hg (hlen hf rfl)] at hj
  have hblock : (blockOf m j).length = 8 := by rw [blockOf_length]; omega
  rw [blockOf_flatMap_segments hg (by rwa [hlen hf rfl]), blockOf_flatMap_segments hf hj, hgf _ hblock]

/-- Where the length is a positive multiple of 8, ECB decryption unpads the decrypted blocks (R145). -/
theorem ecbDecrypt_of_blocks {rk : Vector RoundKey 16} {c : Bytes} (h0 : c.length ≠ 0) (h8 : c.length % 8 = 0) :
    ecbDecrypt rk c = unpadBytes ((segments c).flatMap (decryptBlock rk)) 8 :=
  if_neg (not_or.mpr ⟨h0, not_not.mpr h8⟩)

/-- ECB decryption undoes ECB encryption (R147). -/
theorem ecbDecrypt_ecbEncrypt (rk : Vector RoundKey 16) (d : Bytes) : ecbDecrypt rk (ecbEncrypt rk d) = some d := by
  have hmod : paddedLen d.length 8 % 8 = 0 := paddedLen_mod _ (by decide)
  have hpos : d.length < paddedLen d.length 8 := lt_paddedLen _ (by decide)
  have hblocks : (segments (ecbEncrypt rk d)).flatMap (decryptBlock rk) = padBytes d 8 :=
    flatMap_segments_inverse (encryptBlock_length rk) (decryptBlock_length rk)
      (fun b hb => ((decryptionInvertsEncryption rk).2 b hb).1) (by rwa [padBytes_length])
  rw [ecbDecrypt_of_blocks (by rw [ecbEncrypt_length]; omega) (by rwa [ecbEncrypt_length]), hblocks]
  exact unpadInvertsPad d 8 (by decide) (by decide)

/-- Settles O38: both directions run their block function on each segment. -/
theorem ecbRoundTrip : Obligations.EcbRoundTrip := by
  refine fun rk => ⟨fun d => ⟨?_, fun j hj => ?_⟩, fun c hc => if_pos hc, fun c h0 h8 => ?_, ecbDecrypt_ecbEncrypt rk⟩
  · rw [ecbEncrypt_length, padBytes_length]
  · exact blockOf_flatMap_segments (encryptBlock_length rk) hj
  · refine ⟨(segments c).flatMap (decryptBlock rk), ?_, fun j hj => ?_, ecbDecrypt_of_blocks h0 h8⟩
    · rw [flatMap_segments_length (decryptBlock_length rk)]
      omega
    · exact blockOf_flatMap_segments (decryptBlock_length rk) hj

/-! ### The keystream -/

/-- Adding a keystream that is long enough is undone by adding it again (R146). -/
theorem xorBytes_xorBytes {x ks : Bytes} (h : x.length ≤ ks.length) : xorBytes (xorBytes x ks) ks = x := by
  refine List.ext_getElem (by simp [h]) fun i _ _ => ?_
  simp [xorBytes]

theorem xorBytes_eq_iff {x y ks : Bytes} (hx : x.length ≤ ks.length) (hy : y.length ≤ ks.length) :
    xorBytes x ks = y ↔ xorBytes y ks = x := by
  constructor <;> rintro rfl
  · exact xorBytes_xorBytes hx
  · exact xorBytes_xorBytes hy

/-- Byte i of a segment with the keystream added (R146). -/
theorem getD_xorBytes {x ks : Bytes} (h : x.length ≤ ks.length) {i : Nat} (hi : i < x.length) :
    (xorBytes x ks).getD i 0 = x.getD i 0 ^^^ ks.getD i 0 := by
  have hk : i < ks.length := hi.trans_le h
  rw [List.getD_eq_getElem _ _ (by simp [hi, hk]), List.getD_eq_getElem _ _ hi, List.getD_eq_getElem _ _ hk]
  simp [xorBytes]

/-- A shorter segment takes a shorter keystream (R146). -/
theorem xorBytes_take (x ks : Bytes) (n : Nat) : xorBytes (x.take n) ks = (xorBytes x ks).take n := by
  simp [xorBytes, List.take_zipWith, List.take_take]

end Sys2Proof.Machine
end

section
/-!
CFB from its first segment on: the keystream of a segment, the ciphertext fed back to the next, and what follows for the
whole string (spec 44_mode_commands.md R146, R147).
-/
namespace Sys2Proof.Machine

/-! ### The first segment and the rest -/

/-- A first segment and what follows it come apart at byte 8: only a full segment has anything after it. -/
theorem take_drop_segment {x y m : Bytes} (hx : x.length = min 8 m.length) (hy : y.length = m.length - 8) :
    (x ++ y).take 8 = x ∧ (x ++ y).drop 8 = y := by
  obtain hfull | hshort := Nat.le_total 8 m.length
  · have h8 : x.length = 8 := by omega
    exact ⟨List.take_left' h8, List.drop_left' h8⟩
  · obtain rfl : y = [] := List.length_eq_zero_iff.mp (by omega)
    have h8 : x.length ≤ 8 := by omega
    rw [List.append_nil]
    exact ⟨List.take_of_length_le h8, List.drop_of_length_le h8⟩

theorem eq_iff_take_drop_eight {x y : Bytes} : x = y ↔ x.take 8 = y.take 8 ∧ x.drop 8 = y.drop 8 := by
  refine ⟨fun h => h ▸ ⟨rfl, rfl⟩, fun ⟨htake, hdrop⟩ => ?_⟩
  rw [← List.take_append_drop 8 x, htake, hdrop, List.take_append_drop]

/-- The keystream is as long as the longest segment. -/
theorem take_eight_length_le (m : Bytes) (rk : Vector RoundKey 16) (b : Bytes) :
    (m.take 8).length ≤ (encryptBlock rk b).length := List.length_take_le ..

section
variable (rk : Vector RoundKey 16) (m : Bytes) (iv : Block)

/-- Encryption adds the keystream of the IV to the first segment and feeds its ciphertext to the rest (R146). -/
theorem cfbEncrypt_take_drop :
    (cfbEncrypt rk m iv).1.take 8 = xorBytes (m.take 8) (encryptBlock rk (bytes8 iv)) ∧
    (cfbEncrypt rk m iv).1.drop 8 =
      (cfbEncrypt rk (m.drop 8) (nextFeedback iv (xorBytes (m.take 8) (encryptBlock rk (bytes8 iv))))).1 := by
  by_cases hm : m = []
  · subst hm
    exact ⟨rfl, rfl⟩
  · rw [cfbEncrypt, segments_cons m hm, cfbEncryptSegs]
    refine take_drop_segment (m := m) (by simp) ?_
    exact (cfbEncrypt_length ..).trans List.length_drop

/-- Decryption adds the same keystream and feeds the received segment to the rest (R146). -/
theorem cfbDecrypt_take_drop :
    (cfbDecrypt rk m iv).1.take 8 = xorBytes (m.take 8) (encryptBlock rk (bytes8 iv)) ∧
    (cfbDecrypt rk m iv).1.drop 8 = (cfbDecrypt rk (m.drop 8) (nextFeedback iv (m.take 8))).1 := by
  by_cases hm : m = []
  · subst hm
    exact ⟨rfl, rfl⟩
  · rw [cfbDecrypt, segments_cons m hm, cfbDecryptSegs]
    refine take_drop_segment (m := m) (by simp) ?_
    exact (cfbDecrypt_length ..).trans List.length_drop

end

/-! ### Decryption and encryption are inverse -/

/-- Under one IV, `p` is the decryption of `c` exactly when `c` is the encryption of `p`: each segment has the keystream
added, and both feed back the segment of `c` (R147). -/
theorem cfbDecrypt_eq_iff (rk : Vector RoundKey 16) (c p : Bytes) (iv : Block) :
    (cfbDecrypt rk c iv).1 = p ↔ (cfbEncrypt rk p iv).1 = c := by
  by_cases hc : c = []
  · subst hc
    rw [← List.length_eq_zero_iff (l := (cfbEncrypt rk p iv).1), cfbEncrypt_length, List.length_eq_zero_iff]
    exact eq_comm
  · obtain ⟨hdtake, hddrop⟩ := cfbDecrypt_take_drop rk c iv
    obtain ⟨hetake, hedrop⟩ := cfbEncrypt_take_drop rk p iv
    rw [eq_iff_take_drop_eight, eq_iff_take_drop_eight (y := c), hdtake, hddrop, hetake, hedrop,
      xorBytes_eq_iff (take_eight_length_le ..) (take_eight_length_le ..)]
    refine and_congr_right fun hseg => ?_
    rw [hseg]
    exact cfbDecrypt_eq_iff rk (c.drop 8) (p.drop 8) _
termination_by c.length
decreasing_by
  have := List.length_pos_iff.mpr hc
  rw [List.length_drop]
  omega

/-- Settles O39, one direction of the equivalence between the two functions. -/
theorem cfbRoundTrip : Obligations.CfbRoundTrip := fun rk p iv => (cfbDecrypt_eq_iff rk _ p iv).mpr rfl

/-! ### The bytes of the ciphertext -/

/-- The feedback of what follows a full first ciphertext segment is the feedback of the whole, one segment on (R146). -/
theorem feedbackBlock_drop {c : Bytes} (h : 8 ≤ c.length) (iv : Block) (j : Nat) :
    feedbackBlock (nextFeedback iv (c.take 8)) (c.drop 8) j = feedbackBlock iv c (j + 1) := by
  have h8 : (c.take 8).length = 8 := List.length_take_of_le h
  rw [feedbackBlock_succ]
  cases j with
  | zero => rw [feedbackBlock_zero, blockOf_zero, nextFeedback, if_pos h8, bytes8_be64 h8]
  | succ j => rw [feedbackBlock_succ, blockOf_succ]

/-- Each ciphertext segment is the segment of the message with the keystream of its feedback block added (R146). -/
theorem blockOf_cfbEncrypt (rk : Vector RoundKey 16) {p : Bytes} {iv : Block} {j : Nat} (hj : 8 * j < p.length) :
    blockOf (cfbEncrypt rk p iv).1 j =
      xorBytes (blockOf p j) (encryptBlock rk (feedbackBlock iv (cfbEncrypt rk p iv).1 j)) := by
  induction j generalizing p iv with
  | zero => rw [blockOf_zero, (cfbEncrypt_take_drop rk p iv).1, blockOf_zero, feedbackBlock_zero]
  | succ j ih =>
    obtain ⟨htake, hdrop⟩ := cfbEncrypt_take_drop rk p iv
    rw [← htake] at hdrop
    have hrest : 8 * j < (p.drop 8).length := by rw [List.length_drop]; omega
    have hfull : 8 ≤ (cfbEncrypt rk p iv).1.length := by rw [cfbEncrypt_length]; omega
    rw [blockOf_succ, hdrop, ih hrest, ← hdrop, feedbackBlock_drop hfull, ← blockOf_succ]

/-- Byte i of the ciphertext (R146). -/
theorem getD_cfbEncrypt (rk : Vector RoundKey 16) {p : Bytes} (iv : Block) {i : Nat} (hi : i < p.length) :
    (cfbEncrypt rk p iv).1.getD i 0 =
      p.getD i 0 ^^^ (encryptBlock rk (feedbackBlock iv (cfbEncrypt rk p iv).1 (i / 8))).getD (i % 8) 0 := by
  have hblock : i % 8 < (blockOf p (i / 8)).length := by rw [blockOf_length]; omega
  have hks (b : Bytes) : (blockOf p (i / 8)).length ≤ (encryptBlock rk b).length := take_eight_length_le ..
  rw [getD_eq_blockOf, blockOf_cfbEncrypt rk (by omega), getD_xorBytes (hks _) hblock, ← getD_eq_blockOf]

/-- The ciphertext of the beginning of a message is the beginning of its ciphertext (R146). -/
theorem cfbEncrypt_take (rk : Vector RoundKey 16) (p : Bytes) (iv : Block) (n : Nat) :
    (cfbEncrypt rk (p.take n) iv).1 = (cfbEncrypt rk p iv).1.take n := by
  obtain ⟨htake, hdrop⟩ := cfbEncrypt_take_drop rk p iv
  obtain ⟨htake', hdrop'⟩ := cfbEncrypt_take_drop rk (p.take n) iv
  obtain hle | hlt := le_or_gt n 8
  · have hshort : (cfbEncrypt rk (p.take n) iv).1.length ≤ 8 :=
      (cfbEncrypt_length ..).trans_le ((List.length_take_le n p).trans hle)
    rw [← List.take_of_length_le hshort, htake', List.take_take, Nat.min_comm, ← List.take_take, xorBytes_take, ← htake,
      List.take_take, Nat.min_eq_left hle]
  · have hseg (x : Bytes) : (x.take n).take 8 = x.take 8 := by rw [List.take_take, Nat.min_eq_left hlt.le]
    rw [eq_iff_take_drop_eight, htake', hdrop', hseg, hseg, List.drop_take, List.drop_take, htake, hdrop]
    exact ⟨rfl, cfbEncrypt_take rk (p.drop 8) _ (n - 8)⟩
termination_by n

/-- Settles O40: decryption's bytes are those of the encryption that it undoes. -/
theorem cfbCiphertextGrowsWithTheMessage : Obligations.CfbCiphertextGrowsWithTheMessage := by
  intro rk p q iv c r
  have hback : (cfbEncrypt rk r iv).1 = p := (cfbDecrypt_eq_iff rk p r iv).mp rfl
  have hlen : r.length = p.length := cfbDecrypt_length rk p iv
  refine ⟨cfbEncrypt_length rk p iv, hlen, fun i hi => getD_cfbEncrypt rk iv hi, fun i hi => ?_, ?_⟩
  · have hbyte := getD_cfbEncrypt rk iv (hi.trans_eq hlen.symm)
    rw [hback] at hbyte
    rw [hbyte, BitVec.xor_assoc, BitVec.xor_self, BitVec.xor_zero]
  · rw [← cfbEncrypt_take, List.take_left]

end Sys2Proof.Machine
end

section
/-!
ECBENC, ECBDEC, CFBENC and CFBDEC: the checks that the four share, then what each does on its own, every end with the
scrub (spec 44_mode_commands.md R140 to R144, R150; 60_exceptions.md R183).
-/
namespace Sys2Proof.Machine

/-! ### The checks of a mode command in order -/

theorem isModeOp_opField_iff (i : Instr) :
    isModeOp (opField i) = true ↔ i = .ecbenc ∨ i = .ecbdec ∨ i = .cfbenc ∨ i = .cfbdec := by
  cases i <;> simp [opField, isModeOp]

section
variable {i : Instr} {r : Region} {s : State}

/-- Every mode command ends with RangeError when its regions do not fit, whatever else is wrong (R183). -/
theorem exec_mode_rangeError (hi : isModeOp (opField i) = true) (hr : outputRegion i s.lat = some r)
    (hfit : regionsOk s (inputRegion s.lat) r = false) : exec i s = .next (endCipher .rangeError s) := by
  obtain rfl | rfl | rfl | rfl := (isModeOp_opField_iff i).mp hi <;> cases hr <;>
    exact congrArg _ ((if_pos hfit).trans (complete_cipher _ _ _ rfl))

/-- Every mode command whose regions fit ends with KeyNotLoaded when no key is loaded (R183). -/
theorem exec_mode_keyNotLoaded (hi : isModeOp (opField i) = true) (hr : outputRegion i s.lat = some r)
    (hfit : regionsOk s (inputRegion s.lat) r = true) (hkey : s.status.keyv = false) :
    exec i s = .next (endCipher .keyNotLoaded s) := by
  obtain rfl | rfl | rfl | rfl := (isModeOp_opField_iff i).mp hi <;> cases hr <;>
    exact congrArg _ (((if_neg (ne_false_of_eq_true hfit)).trans (if_pos hkey)).trans (complete_cipher _ _ _ rfl))

end

/-- An output as long as the input leaves LAT.LEN in RESLEN (R20). -/
theorem ofNat_length_eq_len {s : State} {out : Bytes} (h : out.length = s.lat.len.toNat) :
    BitVec.ofNat 32 out.length = s.lat.len := by
  rw [h, BitVec.ofNat_toNat, BitVec.setWidth_eq]

/-- The output is at LAT.DST whatever registers the command has written before it (R28, R47). -/
theorem wroteOutput_of_onlyCommandFields {s u : State} (h : OnlyCommandFields s u) (hbuf : u.buf = s.buf)
    (out : Bytes) :
    WroteOutput s (endCipher .success (writeOutput out u)) s.lat.dst.toNat out :=
  wroteOutput_of_buf (by rw [← h.lat_eq, ← hbuf]; rfl) h.epoch_eq

/-! ### What each mode command does with its regions in order and a key -/

section
variable {s : State}

theorem exec_ecbenc_success (hfit : regionsOk s (inputRegion s.lat) (paddedRegion s.lat 8) = true)
    (hkey : s.status.keyv = true) :
    exec .ecbenc s = .next (endCipher .success (writeOutput (ecbEncrypt s.rk (inputBytes s)) s)) := by
  rw [← complete_cipher (opField .ecbenc) _ _ rfl, exec, execEcbenc, if_neg (ne_false_of_eq_true hfit),
    if_neg (ne_false_of_eq_true hkey)]

variable (hfit : regionsOk s (inputRegion s.lat) (sameRegion s.lat) = true) (hkey : s.status.keyv = true)
include hfit hkey

theorem exec_ecbdec_invalidPadding (hout : ecbDecrypt s.rk (inputBytes s) = none) :
    exec .ecbdec s = .next (endCipher .invalidPadding s) := by
  rw [← complete_cipher (opField .ecbdec) _ _ rfl, exec, execEcbdec, if_neg (ne_false_of_eq_true hfit),
    if_neg (ne_false_of_eq_true hkey), hout]

theorem exec_ecbdec_success {out : Bytes} (hout : ecbDecrypt s.rk (inputBytes s) = some out) :
    exec .ecbdec s = .next (endCipher .success (writeOutput out s)) := by
  rw [← complete_cipher (opField .ecbdec) _ _ rfl, exec, execEcbdec, if_neg (ne_false_of_eq_true hfit),
    if_neg (ne_false_of_eq_true hkey), hout]

theorem exec_cfbdec_missingIv (hivv : s.status.ivv = false) :
    exec .cfbdec s = .next (endCipher .missingIv s) := by
  rw [← complete_cipher (opField .cfbdec) _ _ rfl, exec, execCfbdec, if_neg (ne_false_of_eq_true hfit),
    if_neg (ne_false_of_eq_true hkey), if_pos hivv]

/-- The feedback register does not outlive the command: the scrub clears it (R25, R27). -/
theorem exec_cfbdec_success (hivv : s.status.ivv = true) :
    exec .cfbdec s =
      .next (endCipher .success (writeOutput (cfbDecrypt s.rk (inputBytes s) s.iv).1 s)) := by
  rw [exec, execCfbdec, if_neg (ne_false_of_eq_true hfit), if_neg (ne_false_of_eq_true hkey),
    if_neg (ne_false_of_eq_true hivv)]
  exact congrArg _ (complete_cipher _ _ _ rfl)

/-- CFBENC leaves its output over the state that the selection of the IV leaves, and no feedback (R25, R27, R150). -/
theorem exec_cfbenc_output :
    ∃ t, exec .cfbenc s = .next t ∧
      WroteOutput s t s.lat.dst.toNat (cfbEncrypt s.rk (inputBytes s) (selectIv s).1).1 ∧
      t = { endCipher .success (selectIv s).2 with buf := t.buf, reslen := s.lat.len } := by
  have hlen : (cfbEncrypt s.rk (inputBytes s) (selectIv s).1).1.length = s.lat.len.toNat := by
    rw [cfbEncrypt_length, inputBytes, memRead_length]
  obtain ⟨t, rfl, -, hrest⟩ := endCipher_writeOutput (selectIv s).2 (cfbEncrypt s.rk (inputBytes s) (selectIv s).1).1
  rw [ofNat_length_eq_len hlen] at hrest
  exact ⟨_, (exec_cfbenc_success hfit hkey).trans (congrArg _ (complete_cipher _ _ _ rfl)),
    wroteOutput_of_onlyCommandFields (onlyCommandFields_selectIv s) (selectIv_buf s) _, hrest⟩

end

/-! ### The obligations -/

/-- Settles O20, by ECBENC's checks in order; the ciphertext is as long as the region checked. -/
theorem ecbencEncryptsTheMessage : Obligations.EcbencEncryptsTheMessage := by
  refine ⟨rfl, fun s => ?_⟩
  intro a d n m
  have hok (hfit : RegionsFit s a n d m) : regionsOk s (inputRegion s.lat) (paddedRegion s.lat 8) = true :=
    (regionsOk_iff _ _ _).mpr hfit
  refine ⟨fun hfit => exec_mode_rangeError rfl rfl (regionsOk_eq_false hfit),
    fun hfit hkey => exec_mode_keyNotLoaded rfl rfl (hok hfit) hkey, fun hfit hkey => ?_⟩
  have hlen : (ecbEncrypt s.rk (memRead s a n)).length = m := by rw [ecbEncrypt_length, memRead_length]; rfl
  obtain ⟨t, ht, hwrote, hrest⟩ := endCipher_writeOutput s (ecbEncrypt s.rk (memRead s a n))
  rw [hlen] at hrest
  refine ⟨t, (exec_ecbenc_success (hok hfit) hkey).trans (congrArg _ ht), hlen, hwrote, hrest, ?_⟩
  rw [hrest]
  exact toNat_reslen_of_fits hfit.2.1

/-- Settles O21, by ECBDEC's checks in order; the plaintext is no longer than the region checked. -/
theorem ecbdecDecryptsTheMessage : Obligations.EcbdecDecryptsTheMessage := by
  refine ⟨rfl, fun s => ?_⟩
  intro a d n
  have hok (hfit : RegionsFit s a n d n) : regionsOk s (inputRegion s.lat) (sameRegion s.lat) = true :=
    (regionsOk_iff _ _ _).mpr hfit
  refine ⟨fun hfit => exec_mode_rangeError rfl rfl (regionsOk_eq_false hfit),
    fun hfit hkey => exec_mode_keyNotLoaded rfl rfl (hok hfit) hkey,
    fun hfit hkey hnone => exec_ecbdec_invalidPadding (hok hfit) hkey hnone, fun out hfit hkey hsome => ?_⟩
  have hlen : out.length ≤ n := by simpa using ecbDecrypt_length_le hsome
  have hout : d + out.length ≤ s.bufBytes := (Nat.add_le_add_left hlen d).trans hfit.2.1
  obtain ⟨t, ht, hwrote, hrest⟩ := endCipher_writeOutput s out
  refine ⟨t, (exec_ecbdec_success (hok hfit) hkey hsome).trans (congrArg _ ht), hwrote, hrest, ?_⟩
  rw [hrest]
  exact toNat_reslen_of_fits hout

/-- Settles O22, by CFBENC's checks in order, with the two cases of the selection of the IV. -/
theorem cfbencEncryptsTheMessage : Obligations.CfbencEncryptsTheMessage := by
  refine ⟨rfl, fun s => ?_⟩
  intro a d n
  have hok (hfit : RegionsFit s a n d n) : regionsOk s (inputRegion s.lat) (sameRegion s.lat) = true :=
    (regionsOk_iff _ _ _).mpr hfit
  have hlen (iv : Block) : (cfbEncrypt s.rk (memRead s a n) iv).1.length = n := by
    rw [cfbEncrypt_length, memRead_length]
  refine ⟨fun hfit => exec_mode_rangeError rfl rfl (regionsOk_eq_false hfit),
    fun hfit hkey => exec_mode_keyNotLoaded rfl rfl (hok hfit) hkey,
    fun hfit hkey hivv => ?_, fun hfit hkey hivv => ?_⟩ <;>
    obtain ⟨t, ht, hwrote, hrest⟩ := exec_cfbenc_output (hok hfit) hkey
  · obtain ⟨-, hsel⟩ := (selectIv_cases s).resolve_right fun h => ne_true_of_eq_false h.1 hivv
    rw [hsel] at hwrote hrest
    exact ⟨t, ht, hlen _, hwrote, hrest⟩
  · obtain ⟨-, hsel⟩ := (selectIv_cases s).resolve_left fun h => ne_true_of_eq_false hivv h.1
    rw [hsel] at hwrote hrest
    have hiv : t.iv = Config.rngDraw s.draws := by rw [hrest]; rfl
    exact ⟨t, ht, hlen _, hiv ▸ hwrote, hrest⟩

/-- Settles O23, by CFBDEC's checks in order. -/
theorem cfbdecDecryptsTheMessage : Obligations.CfbdecDecryptsTheMessage := by
  refine ⟨rfl, fun s => ?_⟩
  intro a d n
  have hok (hfit : RegionsFit s a n d n) : regionsOk s (inputRegion s.lat) (sameRegion s.lat) = true :=
    (regionsOk_iff _ _ _).mpr hfit
  refine ⟨fun hfit => exec_mode_rangeError rfl rfl (regionsOk_eq_false hfit),
    fun hfit hkey => exec_mode_keyNotLoaded rfl rfl (hok hfit) hkey,
    fun hfit hkey hivv => exec_cfbdec_missingIv (hok hfit) hkey hivv, fun hfit hkey hivv => ?_⟩
  have hlen : (cfbDecrypt s.rk (memRead s a n) s.iv).1.length = n := by simp
  obtain ⟨t, ht, hwrote, hrest⟩ := endCipher_writeOutput s (cfbDecrypt s.rk (memRead s a n) s.iv).1
  rw [ofNat_length_eq_len hlen] at hrest
  exact ⟨t, (exec_cfbdec_success (hok hfit) hkey hivv).trans (congrArg _ ht), hlen, hwrote, hrest⟩

end Sys2Proof.Machine
end

section
/-!
The text codecs (spec 48_host_adapter.md R160, R162, R169). Each decoder is characterised once by its encoder: hex decoding
answers a byte string exactly for its encoding up to letter case, UTF-8 decoding answers a text exactly for its encoding.
-/
namespace Sys2Proof.Machine

/-! ### Hex digits -/

theorem toNat_toLower (c : Char) :
    c.toLower.toNat = if 65 ≤ c.toNat ∧ c.toNat ≤ 90 then c.toNat + 32 else c.toNat := by
  have hupper : (c.val ≥ 'A'.val ∧ c.val ≤ 'Z'.val) ↔ 65 ≤ c.toNat ∧ c.toNat ≤ 90 := by
    simp [ge_iff_le, UInt32.le_iff_toNat_le]
  unfold Char.toLower
  by_cases h : c.val ≥ 'A'.val ∧ c.val ≤ 'Z'.val
  · have hle := (hupper.mp h).2
    rw [dif_pos h, if_pos (hupper.mp h)]
    show (c.val + 32).toNat = c.val.toNat + 32
    rw [UInt32.toNat_add]
    exact Nat.mod_eq_of_lt (Nat.lt_of_le_of_lt (Nat.add_le_add_right hle 32) (by decide))
  · rw [dif_neg h, if_neg (mt hupper.mpr h)]

theorem toNat_hexDigit {n : Nat} (h : n < 16) : (hexDigit n).toNat = if n < 10 then 48 + n else 87 + n := by
  interval_cases n <;> rfl

/-- A character has the value of a digit exactly when it is that digit up to letter case (R162). -/
theorem hexValue_eq_some_iff (c : Char) (n : Nat) : hexValue c = some n ↔ n < 16 ∧ c.toLower = hexDigit n := by
  have hdigit (h : n < 16) : c.toLower = hexDigit n ↔
      (if 65 ≤ c.toNat ∧ c.toNat ≤ 90 then c.toNat + 32 else c.toNat) = if n < 10 then 48 + n else 87 + n := by
    rw [← Char.toNat_inj, toNat_toLower, toNat_hexDigit h]
  rw [and_congr_right hdigit]
  simp only [hexValue]
  split_ifs <;> simp <;> omega

theorem hexValue_hexDigit {n : Nat} (h : n < 16) : hexValue (hexDigit n) = some n := by
  interval_cases n <;> rfl

theorem toLower_hexDigit {n : Nat} (h : n < 16) : (hexDigit n).toLower = hexDigit n :=
  ((hexValue_eq_some_iff _ n).mp (hexValue_hexDigit h)).2

/-- The hex digits are the 22 characters of R162. -/
theorem mem_hexDigits {c : Char} {n : Nat} (h : hexValue c = some n) :
    c ∈ ['0', '1', '2', '3', '4', '5', '6', '7', '8', '9', 'a', 'b', 'c', 'd', 'e', 'f', 'A', 'B', 'C', 'D', 'E', 'F'] := by
  have hrange : (48 ≤ c.toNat ∧ c.toNat ≤ 57) ∨ (97 ≤ c.toNat ∧ c.toNat ≤ 102) ∨ (65 ≤ c.toNat ∧ c.toNat ≤ 70) := by
    by_contra hno
    simp only [not_or] at hno
    simp [hexValue, hno] at h
  rw [← Char.ofNat_toNat c]
  generalize c.toNat = m at hrange
  obtain ⟨h1, h2⟩ | ⟨h1, h2⟩ | ⟨h1, h2⟩ := hrange <;> interval_cases m <;> decide

/-! ### Hex strings -/

@[simp] theorem hexEncode_nil : hexEncode [] = [] := rfl

@[simp] theorem hexEncode_cons (b : Byte) (bs : Bytes) :
    hexEncode (b :: bs) = hexDigit (b.toNat / 16) :: hexDigit (b.toNat % 16) :: hexEncode bs := rfl

theorem hexEncode_length (bs : Bytes) : (hexEncode bs).length = 2 * bs.length := by
  induction bs with
  | nil => rfl
  | cons b bs ih => simp [ih]; omega

theorem exists_digit_of_mem_hexEncode {c : Char} {bs : Bytes} (h : c ∈ hexEncode bs) : ∃ n < 16, c = hexDigit n := by
  obtain ⟨b, -, hc⟩ := List.mem_flatMap.mp h
  have hb := b.isLt
  obtain rfl | rfl : c = hexDigit (b.toNat / 16) ∨ c = hexDigit (b.toNat % 16) := by simpa using hc
  · exact ⟨_, by omega, rfl⟩
  · exact ⟨_, by omega, rfl⟩

theorem map_toLower_hexEncode (bs : Bytes) : (hexEncode bs).map Char.toLower = hexEncode bs := by
  refine (List.map_congr_left fun c hc => ?_).trans (List.map_id _)
  obtain ⟨n, hn, rfl⟩ := exists_digit_of_mem_hexEncode hc
  exact toLower_hexDigit hn

/-- The first two characters decode to the first byte, the others to the rest (R162). -/
theorem hexDecode_cons_cons_eq_some_iff (x y : Char) (t : Text) (b : Byte) (bs : Bytes) :
    hexDecode (x :: y :: t) = some (b :: bs) ↔
      hexValue x = some (b.toNat / 16) ∧ hexValue y = some (b.toNat % 16) ∧ hexDecode t = some bs := by
  have hb := b.isLt
  have hbyte {h l : Nat} (hh : h < 16) (hl : l < 16) :
      BitVec.ofNat 8 (16 * h + l) = b ↔ h = b.toNat / 16 ∧ l = b.toNat % 16 := by
    rw [← BitVec.toNat_inj, BitVec.toNat_ofNat]
    omega
  rw [hexDecode]
  split
  · next h l hx hy =>
    rw [hx, hy, Option.map_eq_some_iff, Option.some_inj, Option.some_inj, ← and_assoc,
      ← hbyte ((hexValue_eq_some_iff x h).mp hx).1 ((hexValue_eq_some_iff y l).mp hy).1]
    simp [and_comm]
  · next hno =>
    exact iff_of_false nofun fun ⟨hx, hy, _⟩ => hno _ _ hx hy

theorem hexDecode_cons_cons_ne_nil (x y : Char) (t : Text) : hexDecode (x :: y :: t) ≠ some [] := by
  rw [hexDecode]
  split <;> simp

/-- Hex decoding answers a byte string exactly for its encoding up to letter case (R162). -/
theorem hexDecode_eq_some_iff : ∀ (t : Text) (b : Bytes), hexDecode t = some b ↔ t.map Char.toLower = hexEncode b
  | [], b => by cases b <;> simp [hexDecode]
  | [_], b => by cases b <;> simp [hexDecode]
  | x :: y :: t, [] => by simp [hexDecode_cons_cons_ne_nil]
  | x :: y :: t, b :: bs => by
    have hhigh : b.toNat / 16 < 16 := Nat.div_lt_of_lt_mul b.isLt
    have hlow : b.toNat % 16 < 16 := Nat.mod_lt _ (by decide)
    simp [hexDecode_cons_cons_eq_some_iff, hexValue_eq_some_iff, hhigh, hlow, hexDecode_eq_some_iff t bs]

theorem hexDecode_hexEncode (b : Bytes) : hexDecode (hexEncode b) = some b :=
  (hexDecode_eq_some_iff _ _).mpr (map_toLower_hexEncode b)

/-- A text that decodes has two characters for each byte (R162). -/
theorem length_of_hexDecode {t : Text} {b : Bytes} (h : hexDecode t = some b) : t.length = 2 * b.length := by
  rw [← hexEncode_length, ← (hexDecode_eq_some_iff t b).mp h, List.length_map]

/-- Every character of a text that decodes is a hex digit (R162). -/
theorem exists_hexValue_of_hexDecode {t : Text} {b : Bytes} (h : hexDecode t = some b) {c : Char} (hc : c ∈ t) :
    ∃ n, hexValue c = some n := by
  have hmem : c.toLower ∈ hexEncode b := (hexDecode_eq_some_iff t b).mp h ▸ List.mem_map_of_mem hc
  obtain ⟨n, hn, hlower⟩ := exists_digit_of_mem_hexEncode hmem
  exact ⟨n, (hexValue_eq_some_iff c n).mpr ⟨hn, hlower⟩⟩

/-! ### The continuation bytes of UTF-8 -/

theorem scalarOf_eq_some_iff (n : Nat) (c : Char) : scalarOf n = some c ↔ c.toNat = n := by
  unfold scalarOf
  split_ifs with h
  · rw [Option.some_inj, ← Char.toNat_inj, Char.toNat_ofNat, if_pos h, eq_comm]
  · refine iff_of_false nofun ?_
    rintro rfl
    exact h c.valid

/-- The continuation bytes at the end of an encoding: the low `k` groups of 6 bits of the scalar value (R160). -/
def continuationBytes : Nat → Nat → Bytes
  | 0, _ => []
  | k + 1, n => BitVec.ofNat 8 (0x80 + n / 64 ^ k % 64) :: continuationBytes k n

/-- The last continuation byte completes a character that is a scalar value and no overlong form (R160). -/
theorem utf8Go_one_cons_eq_some_iff (x : Byte) (b : Bytes) (acc low : Nat) (r : Text) :
    utf8Go (x :: b) 1 acc low = some r ↔
      (0x80 ≤ x.toNat ∧ x.toNat < 0xC0) ∧ low ≤ acc * 64 + (x.toNat - 0x80) ∧
        ∃ c t, c.toNat = acc * 64 + (x.toNat - 0x80) ∧ utf8Go b 0 0 0 = some t ∧ c :: t = r := by
  by_cases hx : 0x80 ≤ x.toNat ∧ x.toNat < 0xC0
  · by_cases hlow : low ≤ acc * 64 + (x.toNat - 0x80)
    · simp [utf8Go, hx, hlow, scalarOf_eq_some_iff, Nat.not_lt.mpr, Option.bind_eq_some_iff]
    · simp [utf8Go, hlow, Nat.lt_of_not_le]
  · simp [utf8Go, hx]

theorem utf8Go_add_two_cons_eq_some_iff (k : Nat) (x : Byte) (b : Bytes) (acc low : Nat) (r : Text) :
    utf8Go (x :: b) (k + 2) acc low = some r ↔
      (0x80 ≤ x.toNat ∧ x.toNat < 0xC0) ∧ utf8Go b (k + 1) (acc * 64 + (x.toNat - 0x80)) low = some r := by
  by_cases hx : 0x80 ≤ x.toNat ∧ x.toNat < 0xC0
  · simp [utf8Go, hx, Nat.not_lt.mpr]
  · simp [utf8Go, hx]

/-- The bits after one more continuation byte are those before it and the byte's six (R160). -/
theorem bits_continuation_iff (x : Byte) (acc m : Nat) :
    (0x80 ≤ x.toNat ∧ x.toNat < 0xC0) ∧ m = acc * 64 + (x.toNat - 0x80) ↔
      x = BitVec.ofNat 8 (0x80 + m % 64) ∧ m / 64 = acc := by
  rw [← BitVec.toNat_inj, BitVec.toNat_ofNat]
  omega

/-- With continuation bytes to come, decoding answers a character with the bits read so far whose other bits are in those
bytes and that is no overlong form, and then decodes the rest (R160). -/
theorem utf8Go_succ_eq_some_iff (k : Nat) (b : Bytes) (acc low : Nat) (r : Text) :
    utf8Go b (k + 1) acc low = some r ↔
      ∃ c t bs, c :: t = r ∧ b = continuationBytes (k + 1) c.toNat ++ bs ∧ c.toNat / 64 ^ (k + 1) = acc ∧ low ≤ c.toNat ∧
        utf8Go bs 0 0 0 = some t := by
  induction k generalizing b acc with
  | zero =>
    cases b with
    | nil => simp [utf8Go, continuationBytes]
    | cons x b =>
      rw [utf8Go_one_cons_eq_some_iff]
      constructor
      · rintro ⟨hx, hlow, c, t, hc, ht, hr⟩
        obtain ⟨hbyte, hacc⟩ := (bits_continuation_iff x acc c.toNat).mp ⟨hx, hc⟩
        exact ⟨c, t, b, hr, by simp [continuationBytes, hbyte], by simpa using hacc, hc ▸ hlow, ht⟩
      · rintro ⟨c, t, bs, hr, hb, hacc, hlow, ht⟩
        simp only [continuationBytes, zero_add, pow_zero, pow_one, Nat.div_one] at hb hacc
        obtain ⟨hbyte, rfl⟩ := List.cons_eq_cons.mp hb
        obtain ⟨hx, hc⟩ := (bits_continuation_iff x acc c.toNat).mpr ⟨hbyte, hacc⟩
        exact ⟨hx, hc ▸ hlow, c, t, hc, ht, hr⟩
  | succ k ih =>
    cases b with
    | nil => simp [utf8Go, continuationBytes]
    | cons x b =>
      rw [utf8Go_add_two_cons_eq_some_iff, ih]
      constructor
      · rintro ⟨hx, c, t, bs, hr, hb, hacc, hlow, ht⟩
        obtain ⟨hbyte, hacc'⟩ := (bits_continuation_iff x acc _).mp ⟨hx, hacc⟩
        refine ⟨c, t, bs, hr, ?_, ?_, hlow, ht⟩
        · rw [hb, hbyte]; rfl
        · rw [pow_succ, ← Nat.div_div_eq_div_mul, hacc']
      · rintro ⟨c, t, bs, hr, hb, hacc, hlow, ht⟩
        rw [pow_succ, ← Nat.div_div_eq_div_mul] at hacc
        obtain ⟨hbyte, hb⟩ := List.cons_eq_cons.mp hb
        obtain ⟨hx, hc⟩ := (bits_continuation_iff x acc _).mpr ⟨hbyte, hacc⟩
        exact ⟨hx, c, t, bs, hr, hb, hc, hlow, ht⟩

/-! ### The lead bytes of UTF-8 -/

/-- The kinds of lead byte (R160). -/
theorem utf8Go_zero_cons_eq_some_iff (x : Byte) (b : Bytes) (r : Text) :
    utf8Go (x :: b) 0 0 0 = some r ↔
      (x.toNat < 0x80 ∧ ∃ t, utf8Go b 0 0 0 = some t ∧ Char.ofNat x.toNat :: t = r) ∨
      ((0xC0 ≤ x.toNat ∧ x.toNat < 0xC0 + 0x20) ∧ utf8Go b 1 (x.toNat - 0xC0) 0x80 = some r) ∨
      ((0xE0 ≤ x.toNat ∧ x.toNat < 0xE0 + 0x10) ∧ utf8Go b 2 (x.toNat - 0xE0) 0x800 = some r) ∨
      ((0xF0 ≤ x.toNat ∧ x.toNat < 0xF0 + 8) ∧ utf8Go b 3 (x.toNat - 0xF0) 0x10000 = some r) := by
  rw [utf8Go]
  split_ifs <;> grind [Option.map_eq_some_iff]

/-- A lead byte with `base` as its marker and the top bits of a character's value below it starts the encodings of the
characters from `low` on whose top bits fit (R160). -/
theorem utf8Go_lead_eq_some_iff {base width : Nat} (hwidth : base + width ≤ 256) (k low : Nat) (x : Byte) (b : Bytes)
    (r : Text) :
    ((base ≤ x.toNat ∧ x.toNat < base + width) ∧ utf8Go b (k + 1) (x.toNat - base) low = some r) ↔
      ∃ c t bs, c :: t = r ∧
        x :: b = BitVec.ofNat 8 (base + c.toNat / 64 ^ (k + 1)) :: continuationBytes (k + 1) c.toNat ++ bs ∧
        (low ≤ c.toNat ∧ c.toNat / 64 ^ (k + 1) < width) ∧ utf8Go bs 0 0 0 = some t := by
  have hlead (m : Nat) : (base ≤ x.toNat ∧ x.toNat < base + width) ∧ m = x.toNat - base ↔
      x = BitVec.ofNat 8 (base + m) ∧ m < width := by
    rw [← BitVec.toNat_inj, BitVec.toNat_ofNat]
    omega
  rw [utf8Go_succ_eq_some_iff]
  constructor
  · rintro ⟨hx, c, t, bs, hr, hb, hacc, hlow, ht⟩
    obtain ⟨hbyte, hfit⟩ := (hlead _).mp ⟨hx, hacc⟩
    exact ⟨c, t, bs, hr, by rw [← hbyte, hb]; rfl, ⟨hlow, hfit⟩, ht⟩
  · rintro ⟨c, t, bs, hr, hb, ⟨hlow, hfit⟩, ht⟩
    obtain ⟨hbyte, hb⟩ := List.cons_eq_cons.mp hb
    obtain ⟨hx, hacc⟩ := (hlead _).mpr ⟨hbyte, hfit⟩
    exact ⟨hx, c, t, bs, hr, hb, hacc, hlow, ht⟩

/-! ### UTF-8 strings -/

theorem char_lt (c : Char) : c.toNat < 0x110000 := Nat.lt_succ_of_le c.toNat_le_max

theorem toNat_charOfNat {n : Nat} (h : n < 0x80) : (Char.ofNat n).toNat = n := by
  rw [Char.toNat_ofNat, if_pos (.inl (by omega))]

section
variable {c : Char}

theorem utf8Char_one (h : c.toNat < 0x80) : utf8Char c = [BitVec.ofNat 8 c.toNat] := if_pos h

theorem utf8Char_two (h : 0x80 ≤ c.toNat ∧ c.toNat / 64 ^ 1 < 0x20) :
    utf8Char c = BitVec.ofNat 8 (0xC0 + c.toNat / 64 ^ 1) :: continuationBytes 1 c.toNat := by
  rw [utf8Char, if_neg (by omega), if_pos (by omega)]
  simp [continuationBytes]

theorem utf8Char_three (h : 0x800 ≤ c.toNat ∧ c.toNat / 64 ^ 2 < 0x10) :
    utf8Char c = BitVec.ofNat 8 (0xE0 + c.toNat / 64 ^ 2) :: continuationBytes 2 c.toNat := by
  rw [utf8Char, if_neg (by omega), if_neg (by omega), if_pos (by omega)]
  simp [continuationBytes]

theorem utf8Char_four (h : 0x10000 ≤ c.toNat) :
    utf8Char c = BitVec.ofNat 8 (0xF0 + c.toNat / 64 ^ 3) :: continuationBytes 3 c.toNat := by
  rw [utf8Char, if_neg (by omega), if_neg (by omega), if_neg (by omega)]
  simp [continuationBytes]

end

theorem utf8Encode_cons (c : Char) (t : Text) : utf8Encode (c :: t) = utf8Char c ++ utf8Encode t := rfl

theorem utf8Char_ne_nil (c : Char) : utf8Char c ≠ [] := by
  simp only [utf8Char]
  split_ifs <;> simp

/-- Decoding answers a character and a text exactly for the character's encoding followed by bytes that decode to the text
(R160). -/
theorem utf8Decode_eq_some_cons_iff (b : Bytes) (c : Char) (t : Text) :
    utf8Decode b = some (c :: t) ↔ ∃ bs, b = utf8Char c ++ bs ∧ utf8Decode bs = some t := by
  unfold utf8Decode
  cases b with
  | nil => simp [utf8Go, utf8Char_ne_nil]
  | cons x b =>
    rw [utf8Go_zero_cons_eq_some_iff, utf8Go_lead_eq_some_iff (by decide), utf8Go_lead_eq_some_iff (by decide),
      utf8Go_lead_eq_some_iff (by decide)]
    constructor
    · rintro (⟨hx, t, ht, hr⟩ | ⟨c, t, bs, hr, hb, hc, ht⟩ | ⟨c, t, bs, hr, hb, hc, ht⟩ | ⟨c, t, bs, hr, hb, hc, ht⟩) <;>
        cases hr
      · exact ⟨b, by simp [utf8Char_one, toNat_charOfNat hx, hx], ht⟩
      · exact ⟨bs, by rw [utf8Char_two hc, hb], ht⟩
      · exact ⟨bs, by rw [utf8Char_three hc, hb], ht⟩
      · exact ⟨bs, by rw [utf8Char_four hc.1, hb], ht⟩
    · rintro ⟨bs, hb, ht⟩
      have hlt := char_lt c
      obtain h | h | h | h : c.toNat < 0x80 ∨ (0x80 ≤ c.toNat ∧ c.toNat / 64 ^ 1 < 0x20) ∨
          (0x800 ≤ c.toNat ∧ c.toNat / 64 ^ 2 < 0x10) ∨ (0x10000 ≤ c.toNat ∧ c.toNat / 64 ^ 3 < 8) := by omega
      · rw [utf8Char_one h] at hb
        obtain ⟨rfl, rfl⟩ := List.cons_eq_cons.mp hb
        have hx : (BitVec.ofNat 8 c.toNat).toNat = c.toNat := by rw [BitVec.toNat_ofNat]; omega
        exact .inl ⟨hx.symm ▸ h, t, ht, by rw [hx, Char.ofNat_toNat]⟩
      · exact .inr (.inl ⟨c, t, bs, rfl, by rw [hb, utf8Char_two h], h, ht⟩)
      · exact .inr (.inr (.inl ⟨c, t, bs, rfl, by rw [hb, utf8Char_three h], h, ht⟩))
      · exact .inr (.inr (.inr ⟨c, t, bs, rfl, by rw [hb, utf8Char_four h.1], h, ht⟩))

theorem utf8Decode_eq_some_nil_iff (b : Bytes) : utf8Decode b = some [] ↔ b = [] := by
  unfold utf8Decode
  cases b with
  | nil => simp [utf8Go]
  | cons x b => simp [utf8Go_zero_cons_eq_some_iff, utf8Go_succ_eq_some_iff]

/-- UTF-8 decoding answers a text exactly for its encoding (R160). -/
theorem utf8Decode_eq_some_iff (b : Bytes) (t : Text) : utf8Decode b = some t ↔ utf8Encode t = b := by
  induction t generalizing b with
  | nil => rw [utf8Decode_eq_some_nil_iff, eq_comm]; rfl
  | cons c t ih =>
    simp [utf8Decode_eq_some_cons_iff, ih, utf8Encode_cons, eq_comm (b := b)]

theorem utf8Decode_utf8Encode (t : Text) : utf8Decode (utf8Encode t) = some t :=
  (utf8Decode_eq_some_iff _ t).mpr rfl

/-- Settles O58: each decoder answers exactly for the encodings of its encoder. -/
theorem textCodecsRoundTrip : Obligations.TextCodecsRoundTrip := by
  refine ⟨hexDecode_hexEncode, hexDecode_eq_some_iff, fun t hodd => ?_, fun t c hc hno => ?_, by decide,
    utf8Decode_utf8Encode, fun b t => (utf8Decode_eq_some_iff b t).mp⟩
  · refine Option.eq_none_iff_forall_ne_some.mpr fun b hb => ?_
    have := length_of_hexDecode hb
    omega
  · refine Option.eq_none_iff_forall_ne_some.mpr fun b hb => ?_
    obtain ⟨n, hn⟩ := exists_hexValue_of_hexDecode hb hc
    exact hno (mem_hexDigits hn)

end Sys2Proof.Machine
end

section
/-!
The host's side of a command: what its transactions and pseudo-operations do to an IDLE engine (spec 30_encoding.md R68;
48_host_adapter.md section 2).
-/
namespace Sys2Proof.Machine

/-! ### Bytes through the window -/

theorem extractLsb'_zeroExtend_byte (b : Byte) : (b.zeroExtend 32).extractLsb' 0 8 = b := by
  ext i hi
  simp [show i < 32 by omega, BitVec.getLsbD_eq_getElem hi]

theorem memRead_succ (s : State) (a n : Nat) : memRead s a (n + 1) = byteAt s a :: memRead s (a + 1) n := by
  simp [memRead, List.range_succ_eq_map, Nat.add_assoc, Nat.add_comm 1]

/-- Loading bytes into BUF in range is a MemWrite, and else only the host's answer changes (R68). -/
theorem loadBuf_eq {s : State} (hidle : s.status.busy = false) {a : Nat} {bs : Bytes}
    (hfit : a + bs.length ≤ s.bufBytes) : ∃ d e, loadBuf a bs s = answer d e (memWrite s a bs) := by
  induction bs generalizing a s with
  | nil => exact ⟨_, _, rfl⟩
  | cons b bs ih =>
    rw [List.length_cons] at hfit
    have hwindow := bufBytes_le s
    have hbyte : wr8 (bufOffset a) (b.zeroExtend 32) s = answer 0 false (memWrite s a [b]) := by
      refine (transact_write8_window _ hidle (by omega)).trans ?_
      rw [extractLsb'_zeroExtend_byte, writeWindowByte_inside b (by omega)]
    obtain ⟨d, e, h⟩ := ih (s := answer 0 false (memWrite s a [b])) (a := a + 1) hidle
      (show a + 1 + bs.length ≤ s.bufBytes by omega)
    refine ⟨d, e, ?_⟩
    calc loadBuf a (b :: bs) s
      _ = loadBuf (a + 1) bs (wr8 (bufOffset a) (b.zeroExtend 32) s) := rfl
      _ = answer d e (memWrite s a (b :: bs)) := by rw [hbyte, h]; rfl

/-- Fetching bytes of BUF in range is a MemRead, and else only the host's answer changes. -/
theorem fetchBuf_eq {s : State} (hidle : s.status.busy = false) {a n : Nat} (hfit : a + n ≤ s.bufBytes) :
    ∃ d e, fetchBuf a n s = (memRead s a n, answer d e s) := by
  induction n generalizing a s with
  | zero => exact ⟨_, _, rfl⟩
  | succ n ih =>
    have hwindow := bufBytes_le s
    have hbyte : rd8 (bufOffset a) s = answer ((byteAt s a).zeroExtend 32) false s := by
      refine (transact_read8_window hidle (by omega)).trans ?_
      rw [windowByte_inside (by omega)]
    obtain ⟨d, e, h⟩ := ih (s := answer ((byteAt s a).zeroExtend 32) false s) (a := a + 1) hidle
      (show a + 1 + n ≤ s.bufBytes by omega)
    refine ⟨d, e, ?_⟩
    rw [fetchBuf, hbyte, h, memRead_succ, answer_resp, extractLsb'_zeroExtend_byte]
    rfl

/-! ### Registers -/

theorem rd32_regOffset (r : Reg) (s : State) : rd32 (regOffset r) s = answer (readReg r s) false s :=
  transact_read32_reg r s

theorem runOps_append (ops ops' : List HostOp) (s : State) : runOps (ops ++ ops') s = runOps ops' (runOps ops s) :=
  List.foldl_append

theorem runOps_wr32 (r : Reg) (v : Word) (s : State) :
    runOps [.wr32 (regOffset r) (.imm v)] s = answer 0 false (writeReg r v s) :=
  transact_write32_reg r v s

/-! ### Issue and wait -/

/-- The engine right after `issue` of a command (R68): the operands the command uses are written, and its word is accepted
with the operand registers as they stand. -/
def issued (i : Instr) (src dst len : Word) (s : State) : State :=
  answer 0 false (accept (encode i)
    (withOperands (if Operand.src ∈ operandsOf i then src else s.src) (if Operand.dst ∈ operandsOf i then dst else s.dst)
      (if Operand.len ∈ operandsOf i then len else s.len) s))

theorem issued_busy (i : Instr) (src dst len : Word) (s : State) : (issued i src dst len s).status.busy = true := rfl

theorem issued_cmd (i : Instr) (src dst len : Word) (s : State) : (issued i src dst len s).lat.cmd = encode i := rfl

theorem runOps_issueOps {s : State} (hidle : s.status.busy = false) (i : Instr) (src dst len : Word) :
    runOps (issueOps i src dst len) s = issued i src dst len s := by
  have hoperand (c : Prop) [Decidable c] (r : Reg) (v : Word) (u : State) :
      runOps (if c then [.wr32 (regOffset r) (.imm v)] else []) u = if c then answer 0 false (writeReg r v u) else u := by
    split_ifs
    · exact runOps_wr32 r v u
    · rfl
  have hcmd (u : State) (hu : u.status.busy = false) : writeReg .cmd (encode i) u = accept (encode i) u :=
    if_neg (ne_true_of_eq_false hu)
  simp only [issueOps, issued, runOps_append, runOps_wr32, hoperand]
  rw [hcmd]
  · split_ifs <;> rfl
  · split_ifs <;> exact hidle

/-- The engine after the host has read STATUS (R68). -/
def polled (s : State) : State := answer (statusWord s.status) false s

/-- Issuing a command in IDLE and waiting is its completion, and the result code it left is read back (R68). -/
theorem runCommand_eq {i : Instr} {s t : State} {src dst len : Nat} (hidle : s.status.busy = false) (hwf : i.wf = true)
    (h : exec i (issued i (BitVec.ofNat 32 src) (BitVec.ofNat 32 dst) (BitVec.ofNat 32 len) s) = .next t) :
    runCommand i src dst len s = .next (polled t, t.status.errcode) := by
  obtain ⟨-, hcode, -⟩ := statusWord_fields t.status
  rw [runCommand, runOps_issueOps hidle, engineTurn_true_of_busy (issued_busy ..),
    completion_of_command ((congrArg decode (issued_cmd ..)).trans (decode_encode hwf)), h]
  simp only [andThen, rd32_regOffset, answer_resp, readReg, hcode, codeOfBits_codeBits, polled]

end Sys2Proof.Machine
end

section
/-!
The steps of the two boundary functions (spec 48_host_adapter.md R164, R165): placing bytes at 0 and running a command over
them, and what each of the steps KEYLD, IVLD, "fail with" and message command can do. A step is stated over every
continuation, so that a use of it needs nothing of what follows.
-/
namespace Sys2Proof.Machine

/-! ### A command over placed bytes -/

/-- The engine running `i` over the byte string `m`, which the host has placed at 0 (R164, R165). -/
def placed (i : Instr) (m : Bytes) (s : State) : State :=
  issued i (BitVec.ofNat 32 0) (BitVec.ofNat 32 0) (BitVec.ofNat 32 m.length) (memWrite s 0 m)

@[simp] theorem placed_bufBytes (i : Instr) (m : Bytes) (s : State) : (placed i m s).bufBytes = s.bufBytes := rfl

theorem memRead_placed (i : Instr) (m : Bytes) (s : State) : memRead (placed i m s) 0 m.length = m :=
  memRead_memWrite s 0 m

section
variable {i : Instr} {m : Bytes} {s : State}

theorem placed_dst (h : Operand.dst ∈ operandsOf i) : (placed i m s).lat.dst = 0 := if_pos h

theorem placed_src (h : Operand.src ∈ operandsOf i) : (placed i m s).lat.src = 0 := if_pos h

section
variable (hlen : Operand.len ∈ operandsOf i) (hfit : m.length ≤ s.bufBytes)
include hlen hfit

theorem placed_len : (placed i m s).lat.len.toNat = m.length := by
  have hlat : (placed i m s).lat.len = BitVec.ofNat 32 m.length := if_pos hlen
  rw [hlat]
  exact toNat_reslen_of_fits (s := s) (d := 0) (by omega)

theorem placed_len_eq_eight_iff : (placed i m s).lat.len = 8 ↔ m.length = 8 := by
  rw [← placed_len hlen hfit]
  exact BitVec.toNat_inj.symm

variable (hsrc : Operand.src ∈ operandsOf i)
include hsrc

theorem inputRegion_placed : inputRegion (placed i m s).lat = { start := 0, len := m.length } := by
  rw [inputRegion, placed_src hsrc, placed_len hlen hfit]
  rfl

theorem inRange_placed : inRange (placed i m s) (inputRegion (placed i m s).lat) = true := by
  rw [inRange_iff, inputRegion_placed hlen hfit hsrc]
  simpa using hfit

theorem inputBytes_placed : inputBytes (placed i m s) = m := by
  rw [inputBytes, placed_src hsrc, placed_len hlen hfit]
  exact memRead_placed i m s

end

theorem memRead_eight_placed (hsrc : Operand.src ∈ operandsOf i) (h8 : m.length = 8) :
    memRead (placed i m s) (placed i m s).lat.src.toNat 8 = m := by
  rw [placed_src hsrc, ← h8]
  exact memRead_placed i m s

/-- Placing bytes that fit and running a command over them is the command's completion, and its result code. -/
theorem runCommand_placed {t : State} (hidle : s.status.busy = false) (hfit : m.length ≤ s.bufBytes) (hwf : i.wf = true)
    (h : exec i (placed i m s) = .next t) :
    runCommand i 0 0 m.length (loadBuf 0 m s) = .next (polled t, t.status.errcode) := by
  obtain ⟨d, e, hload⟩ := loadBuf_eq hidle (a := 0) (bs := m) (by omega)
  rw [hload]
  exact runCommand_eq (s := answer d e (memWrite s 0 m)) hidle hwf h

end

theorem eight_le_bufBytes (s : State) : 8 ≤ s.bufBytes :=
  Nat.pow_le_pow_right (n := 2) (i := 3) (by decide) (by omega)

/-! ### What the steps leave -/

/-- What a boundary function returns, with the state it leaves. -/
abbrev Returned (α : Type) := Host.Outcome (State × Reply α) Fault Refusal

/-- IDLE, with no key state left (R166). -/
structure Keyless (t : State) : Prop where
  idle : t.status.busy = false
  keyv : t.status.keyv = false
  k : t.k = 0
  rk : t.rk = zeroKeys

/-- IDLE, with the key state and the buffer size of `s`. -/
structure KeepsKey (s t : State) : Prop where
  idle : t.status.busy = false
  keyv : t.status.keyv = s.status.keyv
  rk : t.rk = s.rk
  bufExp : t.bufExp = s.bufExp

/-- The round keys of a key text (R114, R161). -/
def textKeys (rawTrimmed : Bool) (key : Text) : Vector RoundKey 16 :=
  keySchedule (be64 (parityAdjust (normalizeText rawTrimmed key)))

/-- "fail with e" leaves no key (R164, R166). -/
theorem failWith_keyless (e : ErrCode) {s : State} (hidle : s.status.busy = false) :
    ∃ t, Keyless t ∧ ∀ α : Type, (failWith e s : Returned α) = .next (t, .err e) := by
  have hrun := runCommand_eq (src := 0) (dst := 0) (len := 0) hidle rfl (exec_zeroize _)
  exact ⟨polled (endPlain .success (zeroizeState (issued .zeroize 0 0 0 s))), ⟨rfl, rfl, rfl, rfl⟩,
    fun α => by rw [failWith, hrun]; rfl⟩

/-- The key step (R164 step 3): a key that normalizes to 8 bytes is loaded; any other ends the call with no key loaded, and
where it does not fit BUF with nothing changed. -/
theorem withKey_cases (rawTrimmed : Bool) (key : Text) {s : State} (hidle : s.status.busy = false) :
    ((normalizeText rawTrimmed key).length = 8 ∧
      ∃ t, t.status.busy = false ∧ t.status.keyv = true ∧ t.rk = textKeys rawTrimmed key ∧ t.bufExp = s.bufExp ∧
        ∀ (α : Type) (k : State → Returned α), withKey rawTrimmed key s k = k t) ∨
    ((normalizeText rawTrimmed key).length ≠ 8 ∧
      ∃ t e, (Keyless t ∨ t = s) ∧ ∀ (α : Type) (k : State → Returned α), withKey rawTrimmed key s k = .next (t, .err e)) := by
  unfold textKeys
  generalize hkb : normalizeText rawTrimmed key = kb
  have hbuf := eight_le_bufBytes s
  by_cases hlong : s.bufBytes < kb.length
  · exact .inr ⟨by omega, s, _, .inr rfl, fun α k => by rw [withKey, hkb, if_pos hlong]⟩
  have hfit : kb.length ≤ s.bufBytes := Nat.le_of_not_lt hlong
  have hrange := inRange_placed (i := .keyld) (by decide) hfit (by decide)
  have hlen := placed_len_eq_eight_iff (i := .keyld) (by decide) hfit
  by_cases h8 : kb.length = 8
  · have hexec := exec_keyld_success hrange (hlen.mpr h8)
    rw [memRead_eight_placed (by decide) h8] at hexec
    have hrun := runCommand_placed hidle hfit rfl hexec
    exact .inl ⟨h8, polled (endPlain .success (loadKey (be64 (parityAdjust kb)) (placed .keyld kb s))), rfl, rfl, rfl, rfl,
      fun α k => by rw [withKey, hkb, if_neg hlong, hrun]; rfl⟩
  · have hrun := runCommand_placed hidle hfit rfl (exec_keyld_invalidKeyLength hrange (mt hlen.mp h8))
    exact .inr ⟨h8, polled (endPlain .invalidKeyLength (failKey (placed .keyld kb s))), _, .inl ⟨rfl, rfl, rfl, rfl⟩,
      fun α k => by rw [withKey, hkb, if_neg hlong, hrun]; rfl⟩

/-- The IV step of a supplied IV (R164 step 4): an IV that normalizes to 8 bytes is loaded beside the key; any other ends
the call with no key left. -/
theorem withIv_supplied_cases (rawTrimmed : Bool) (v : Text) {s : State} (hidle : s.status.busy = false) :
    ((normalizeText rawTrimmed v).length = 8 ∧
      ∃ t, KeepsKey s t ∧ t.status.ivv = true ∧ t.iv = be64 (normalizeText rawTrimmed v) ∧
        ∀ (α : Type) (k : State → Returned α), withIv rawTrimmed .cfb (some v) s k = k t) ∨
    ((normalizeText rawTrimmed v).length ≠ 8 ∧
      ∃ t e, Keyless t ∧ ∀ (α : Type) (k : State → Returned α), withIv rawTrimmed .cfb (some v) s k = .next (t, .err e)) := by
  generalize hib : normalizeText rawTrimmed v = ib
  have hbuf := eight_le_bufBytes s
  by_cases hlong : s.bufBytes < ib.length
  · obtain ⟨t, ht, hfail⟩ := failWith_keyless .invalidIvLength hidle
    exact .inr ⟨by omega, t, _, ht, fun α k => by rw [withIv, hib, if_pos hlong, hfail]⟩
  have hfit : ib.length ≤ s.bufBytes := Nat.le_of_not_lt hlong
  have hrange := inRange_placed (i := .ivld) (by decide) hfit (by decide)
  have hlen := placed_len_eq_eight_iff (i := .ivld) (by decide) hfit
  by_cases h8 : ib.length = 8
  · have hexec := exec_ivld_success hrange (hlen.mpr h8)
    rw [memRead_eight_placed (by decide) h8] at hexec
    have hrun := runCommand_placed hidle hfit rfl hexec
    exact .inl ⟨h8, polled (endPlain .success (loadIv (be64 ib) (placed .ivld ib s))), ⟨rfl, rfl, rfl, rfl⟩, rfl, rfl,
      fun α k => by rw [withIv, hib, if_neg hlong, hrun]; rfl⟩
  · have hrun := runCommand_placed hidle hfit rfl (exec_ivld_invalidIvLength hrange (mt hlen.mp h8))
    obtain ⟨t, ht, hfail⟩ := failWith_keyless .invalidIvLength
      (s := polled (endPlain .invalidIvLength (failIv (placed .ivld ib s)))) rfl
    exact .inr ⟨h8, t, _, ht, fun α k => by rw [withIv, hib, if_neg hlong, hrun, ← hfail]; rfl⟩

/-- The IV step (R164 step 4) goes on with the same key, or ends the call with no key left. -/
theorem withIv_cases (rawTrimmed : Bool) (md : TextMode) (iv : Option Text) {s : State} (hidle : s.status.busy = false) :
    (∃ t, KeepsKey s t ∧ ∀ (α : Type) (k : State → Returned α), withIv rawTrimmed md iv s k = k t) ∨
    (∃ t e, Keyless t ∧ ∀ (α : Type) (k : State → Returned α), withIv rawTrimmed md iv s k = .next (t, .err e)) := by
  have hignored (h : ∀ (α : Type) (k : State → Returned α), withIv rawTrimmed md iv s k = k s) :
      ∃ t, KeepsKey s t ∧ ∀ (α : Type) (k : State → Returned α), withIv rawTrimmed md iv s k = k t :=
    ⟨s, ⟨hidle, rfl, rfl, rfl⟩, h⟩
  match md, iv with
  | .ecb, iv => exact .inl (hignored fun _ _ => rfl)
  | .cfb, none => exact .inl (hignored fun _ _ => rfl)
  | .cfb, some v =>
    obtain ⟨-, t, ht, -, -, hk⟩ | ⟨-, hfail⟩ := withIv_supplied_cases rawTrimmed v hidle
    · exact .inl ⟨t, ht, hk⟩
    · exact .inr hfail

/-! ### The message step -/

section
variable {i : Instr} {m : Bytes} {s t : State}
variable (hidle : s.status.busy = false) (hfit : m.length ≤ s.bufBytes) (hwf : i.wf = true)
  (hexec : exec i (placed i m s) = .next t)
include hidle hfit hwf hexec

theorem runMessage_error (hcode : t.status.errcode ≠ .success) (α : Type) (k : Bytes → State → Returned α) :
    runMessage i m s k = .next (polled t, .err t.status.errcode) := by
  rw [runMessage, runCommand_placed hidle hfit hwf hexec]
  exact if_neg hcode

/-- After a command that succeeded the host has the RESLEN bytes at 0. -/
theorem runMessage_success (hcode : t.status.errcode = .success) (htidle : t.status.busy = false)
    (hres : t.reslen.toNat ≤ t.bufBytes) :
    ∃ d e, ∀ (α : Type) (k : Bytes → State → Returned α),
      runMessage i m s k = k (memRead t 0 t.reslen.toNat) (answer d e t) := by
  obtain ⟨d, e, hfetch⟩ := fetchBuf_eq (s := answer t.reslen false (polled t)) htidle (a := 0) (n := t.reslen.toNat)
    (by rw [Nat.zero_add]; exact hres)
  refine ⟨d, e, fun α k => ?_⟩
  rw [runMessage, runCommand_placed hidle hfit hwf hexec]
  simp only [andThen, hcode, if_true, rd32_regOffset]
  show k (fetchBuf 0 t.reslen.toNat (answer t.reslen false (polled t))).1
    (fetchBuf 0 t.reslen.toNat (answer t.reslen false (polled t))).2 = _
  rw [hfetch]
  rfl

end

/-- Whatever a cipher command does with a message, it leaves no key, and the call goes on or ends there (R27, R166). -/
theorem runMessage_cases {i : Instr} {m : Bytes} {s : State} (hidle : s.status.busy = false)
    (hfit : m.length ≤ s.bufBytes) (hwf : i.wf = true) (hcipher : isCipherOp (opField i) = true) :
    ∃ t, Keyless t ∧
      ((∃ c, ∀ (α : Type) (k : Bytes → State → Returned α), runMessage i m s k = k c t) ∨
        (∃ e, ∀ (α : Type) (k : Bytes → State → Returned α), runMessage i m s k = .next (t, .err e))) := by
  obtain ⟨t, hexec, code, u, hwrites, rfl⟩ := exec_ends i (placed i m s)
  have hres : u.reslen.toNat ≤ u.bufBytes :=
    (hwrites.reslen_le (Nat.zero_le _)).trans_eq (bufBytes_congr hwrites.onlyCommandFields.bufExp_eq).symm
  rw [complete_cipher _ _ _ hcipher] at hexec
  by_cases hcode : code = .success
  · obtain ⟨d, e, hk⟩ := runMessage_success hidle hfit hwf hexec hcode rfl hres
    exact ⟨_, ⟨rfl, rfl, rfl, rfl⟩, .inl ⟨_, hk⟩⟩
  · exact ⟨_, ⟨rfl, rfl, rfl, rfl⟩, .inr ⟨_, runMessage_error hidle hfit hwf hexec hcode⟩⟩

end Sys2Proof.Machine
end

section
/-!
No key state outlives a boundary function (spec 48_host_adapter.md R166): each step of a call either goes on in IDLE or ends
the call without a key.
-/
namespace Sys2Proof.Machine

/-- The call returns, and leaves an IDLE engine without key state (R166). -/
def ReturnsKeyless {α : Type} (o : Returned α) : Prop := ∃ t r, o = .next (t, r) ∧ Keyless t

section
variable {α : Type} {s : State}

theorem returnsKeyless_failWith (e : ErrCode) (hidle : s.status.busy = false) :
    ReturnsKeyless (failWith e s : Returned α) := by
  obtain ⟨t, ht, hfail⟩ := failWith_keyless e hidle
  exact ⟨t, _, hfail α, ht⟩

theorem returnsKeyless_withKey (rawTrimmed : Bool) (key : Text) {k : State → Returned α} (hs : Keyless s)
    (hk : ∀ t, t.status.busy = false → ReturnsKeyless (k t)) : ReturnsKeyless (withKey rawTrimmed key s k) := by
  obtain ⟨-, t, ht, -, -, -, hgo⟩ | ⟨-, t, e, ht, hend⟩ := withKey_cases rawTrimmed key hs.idle
  · rw [hgo]
    exact hk t ht
  · refine ⟨t, _, hend α k, ?_⟩
    obtain ht | rfl := ht
    · exact ht
    · exact hs

theorem returnsKeyless_withIv (rawTrimmed : Bool) (md : TextMode) (iv : Option Text) {k : State → Returned α}
    (hidle : s.status.busy = false) (hk : ∀ t, t.status.busy = false → ReturnsKeyless (k t)) :
    ReturnsKeyless (withIv rawTrimmed md iv s k) := by
  obtain ⟨t, ht, hgo⟩ | ⟨t, e, ht, hend⟩ := withIv_cases rawTrimmed md iv hidle
  · rw [hgo]
    exact hk t ht.idle
  · exact ⟨t, _, hend α k, ht⟩

theorem returnsKeyless_runMessage {i : Instr} {m : Bytes} {k : Bytes → State → Returned α} (hidle : s.status.busy = false)
    (hfit : m.length ≤ s.bufBytes) (hwf : i.wf = true) (hcipher : isCipherOp (opField i) = true)
    (hk : ∀ c t, Keyless t → ReturnsKeyless (k c t)) : ReturnsKeyless (runMessage i m s k) := by
  obtain ⟨t, ht, ⟨c, hgo⟩ | ⟨e, hend⟩⟩ := runMessage_cases hidle hfit hwf hcipher
  · rw [hgo]
    exact hk c t ht
  · exact ⟨t, _, hend α k, ht⟩

end

theorem returnsKeyless_encryptText (rawTrimmed : Bool) (p key mode : Text) (iv : Option Text) {s : State}
    (hs : Keyless s) : ReturnsKeyless (encryptText rawTrimmed p key mode iv s) := by
  unfold encryptText
  split
  · exact ⟨s, _, rfl, hs⟩
  · next md _ =>
    refine returnsKeyless_withKey _ _ hs fun s1 h1 => returnsKeyless_withIv _ _ _ h1 fun s2 h2 => ?_
    dsimp only
    split_ifs with hlong
    · exact returnsKeyless_failWith _ h2
    cases md <;> refine returnsKeyless_runMessage h2 ?_ rfl rfl fun c t ht => ?_
    · dsimp only at hlong; omega
    · exact ⟨t, _, rfl, ht⟩
    · exact Nat.le_of_not_lt hlong
    · exact ⟨_, _, rfl, ht.idle, ht.keyv, ht.k, ht.rk⟩

theorem returnsKeyless_decryptText (rawTrimmed : Bool) (c key mode : Text) (iv : Option Text) {s : State}
    (hs : Keyless s) : ReturnsKeyless (decryptText rawTrimmed c key mode iv s) := by
  unfold decryptText
  split
  · exact ⟨s, _, rfl, hs⟩
  · next md _ =>
    refine returnsKeyless_withKey _ _ hs fun s1 h1 => returnsKeyless_withIv _ _ _ h1 fun s2 h2 => ?_
    split
    · exact returnsKeyless_failWith _ h2
    split_ifs with hlong
    · exact returnsKeyless_failWith _ h2
    refine returnsKeyless_runMessage h2 (Nat.le_of_not_lt hlong) (by cases md <;> rfl) (by cases md <;> rfl)
      fun r t ht => ?_
    split
    · exact ⟨t, _, rfl, ht⟩
    · exact ⟨t, _, rfl, ht⟩

/-- Settles O59: every step of either function goes on in IDLE or ends the call without a key. -/
theorem adapterLeavesNoKey : Obligations.AdapterLeavesNoKey := by
  intro rawTrimmed x key mode iv s hinv hidle hkeyv
  obtain ⟨hk, hrk⟩ := hinv.keyAbsent hkeyv
  have hs : Keyless s := ⟨hidle, hkeyv, hk, hrk⟩
  obtain ⟨t, r, ht, htkey⟩ := returnsKeyless_encryptText rawTrimmed x key mode iv hs
  obtain ⟨u, q, hu, hukey⟩ := returnsKeyless_decryptText rawTrimmed x key mode iv hs
  exact ⟨⟨t, r, ht, htkey.idle, htkey.keyv, htkey.k, htkey.rk⟩, ⟨u, q, hu, hukey.idle, hukey.keyv, hukey.k, hukey.rk⟩⟩

end Sys2Proof.Machine
end

section
/-!
Decryption gives back what encryption returned (spec 48_host_adapter.md R169 (a), (d)): what each mode command makes of a
message that fits, what an encryption that answers has returned, and the decryption of that.
-/
namespace Sys2Proof.Machine

/-! ### The mode commands over a message that fits -/

/-- The message step goes on in IDLE with the bytes `out`, and with `iv` in IV. -/
def MessageYields (i : Instr) (m : Bytes) (s : State) (out : Bytes) (iv : Block) : Prop :=
  ∃ t, t.status.busy = false ∧ t.bufExp = s.bufExp ∧ t.iv = iv ∧
    ∀ (α : Type) (k : Bytes → State → Returned α), runMessage i m s k = k out t

section
variable {i : Instr} {m : Bytes} {s : State}

/-- The operands of a mode command are all of SRC, DST and LEN (R63). -/
theorem mem_operandsOf_mode (hi : isModeOp (opField i) = true) :
    Operand.src ∈ operandsOf i ∧ Operand.dst ∈ operandsOf i ∧ Operand.len ∈ operandsOf i := by
  obtain rfl | rfl | rfl | rfl := (isModeOp_opField_iff i).mp hi <;> decide

/-- A command in place over a message has its regions in order where the message and its output region fit (R45, R46). -/
theorem regionsOk_placed (hi : isModeOp (opField i) = true) (hfit : m.length ≤ s.bufBytes) {r : Region}
    (hr : r.start = (placed i m s).lat.dst.toNat) (hlen : r.len ≤ s.bufBytes) :
    regionsOk (placed i m s) (inputRegion (placed i m s).lat) r = true := by
  obtain ⟨hsrc, hdst, hn⟩ := mem_operandsOf_mode hi
  have hstart : r.start = 0 := by rw [hr, placed_dst hdst]; rfl
  rw [regionsOk_iff, inputRegion_placed hn hfit hsrc, hstart]
  exact ⟨by simpa using hfit, by simpa using hlen, .inl rfl⟩

theorem regionsOk_placed_same (hi : isModeOp (opField i) = true) (hfit : m.length ≤ s.bufBytes) :
    regionsOk (placed i m s) (inputRegion (placed i m s).lat) (sameRegion (placed i m s).lat) = true :=
  regionsOk_placed hi hfit rfl ((placed_len (mem_operandsOf_mode hi).2.2 hfit).trans_le hfit)

variable (hidle : s.status.busy = false)
include hidle

/-- A mode command that succeeds with an output hands on that output and the IV it has left. -/
theorem messageYields_of_exec {out : Bytes} {u : State} (hi : isModeOp (opField i) = true) (hwf : i.wf = true)
    (hfit : m.length ≤ s.bufBytes) (hout : out.length ≤ s.bufBytes) (hu : OnlyCommandFields (placed i m s) u)
    (hexec : exec i (placed i m s) = .next (endCipher .success (writeOutput out u))) :
    MessageYields i m s out u.iv := by
  obtain ⟨t, ht, ⟨hwrote, -⟩, hrest⟩ := endCipher_writeOutput u out
  rw [ht] at hexec
  rw [hu.lat_eq, placed_dst (mem_operandsOf_mode hi).2.1] at hwrote
  have hsize : t.bufExp = s.bufExp := by rw [hrest]; exact hu.bufExp_eq
  have hres : t.reslen.toNat = out.length := by
    rw [hrest]
    exact toNat_reslen_of_fits (s := s) (d := 0) (by omega)
  obtain ⟨d, e, hk⟩ := runMessage_success hidle hfit hwf hexec (by rw [hrest]; rfl) (by rw [hrest]; rfl)
    (by rw [hres, bufBytes_congr hsize]; exact hout)
  refine ⟨answer d e t, by rw [hrest]; rfl, hsize, by rw [hrest]; rfl, fun α k => ?_⟩
  rw [hk, hres]
  exact congrArg (k · (answer d e t)) hwrote

variable (hkey : s.status.keyv = true)
include hkey

theorem messageYields_ecbenc (hfit : paddedLen m.length 8 ≤ s.bufBytes) :
    MessageYields .ecbenc m s (ecbEncrypt s.rk m) s.iv := by
  have hm : m.length ≤ s.bufBytes := (Nat.le_add_right _ _).trans hfit
  have hlen := placed_len (i := .ecbenc) (by decide) hm
  have hexec := exec_ecbenc_success (s := placed .ecbenc m s)
    (regionsOk_placed rfl hm rfl (by simpa [paddedRegion, hlen] using hfit)) hkey
  rw [inputBytes_placed (by decide) hm (by decide)] at hexec
  exact messageYields_of_exec (u := placed .ecbenc m s) hidle rfl rfl hm (by simpa using hfit) (.refl _) hexec

theorem messageYields_ecbdec {out : Bytes} (hfit : m.length ≤ s.bufBytes) (hout : ecbDecrypt s.rk m = some out) :
    MessageYields .ecbdec m s out s.iv := by
  have hexec := exec_ecbdec_success (s := placed .ecbdec m s) (regionsOk_placed_same rfl hfit) hkey
    (by rw [inputBytes_placed (by decide) hfit (by decide)]; exact hout)
  exact messageYields_of_exec (u := placed .ecbdec m s) hidle rfl rfl hfit ((ecbDecrypt_length_le hout).trans hfit) (.refl _) hexec

/-- CFBENC leaves in IV the IV it has used, loaded or drawn (R150). -/
theorem messageYields_cfbenc (hfit : m.length ≤ s.bufBytes) :
    ∃ iv, MessageYields .cfbenc m s (cfbEncrypt s.rk m iv).1 iv := by
  have hexec := exec_cfbenc_success (s := placed .cfbenc m s) (regionsOk_placed_same rfl hfit) hkey
  rw [inputBytes_placed (by decide) hfit (by decide), complete_cipher _ _ _ rfl] at hexec
  have hiv : (selectIv (placed .cfbenc m s)).2.iv = (selectIv (placed .cfbenc m s)).1 := by
    obtain ⟨-, hsel⟩ | ⟨-, hsel⟩ := selectIv_cases (placed .cfbenc m s) <;> rw [hsel]
  have hyields := messageYields_of_exec hidle rfl rfl hfit (by simpa using hfit)
    ((onlyCommandFields_selectIv _).trans (onlyCommandFields_setFeedback _ _)) hexec
  rw [setFeedback_iv, hiv] at hyields
  exact ⟨_, hyields⟩

theorem messageYields_cfbdec (hivv : s.status.ivv = true) (hfit : m.length ≤ s.bufBytes) :
    MessageYields .cfbdec m s (cfbDecrypt s.rk m s.iv).1 s.iv := by
  have hexec := exec_cfbdec_success (s := placed .cfbdec m s) (regionsOk_placed_same rfl hfit) hkey hivv
  rw [inputBytes_placed (by decide) hfit (by decide)] at hexec
  exact messageYields_of_exec (u := placed .cfbdec m s) hidle rfl rfl hfit (by simpa using hfit) (.refl _) hexec

end

/-! ### The IV text that encryption returns -/

theorem isTrimmed_hexDigit {n : Nat} (h : n < 16) : isTrimmed (hexDigit n) = false := by
  interval_cases n <;> rfl

theorem dropWhile_isTrimmed_eq {t : Text} (h : ∀ c ∈ t, isTrimmed c = false) : t.dropWhile isTrimmed = t := by
  cases t with
  | nil => rfl
  | cons c t => rw [List.dropWhile_cons_of_neg (ne_true_of_eq_false (h c List.mem_cons_self))]

/-- Trimming keeps a text without trimmed characters (R163). -/
theorem trimText_eq {t : Text} (h : ∀ c ∈ t, isTrimmed c = false) : trimText t = t := by
  rw [trimText, dropWhile_isTrimmed_eq h, dropWhile_isTrimmed_eq (by simpa using h), List.reverse_reverse]

/-- The encoding of 8 bytes normalizes to those bytes (R161). -/
theorem normalizeText_hexEncode (rawTrimmed : Bool) {bs : Bytes} (h : bs.length = 8) :
    normalizeText rawTrimmed (hexEncode bs) = bs := by
  have htrim : trimText (hexEncode bs) = hexEncode bs := trimText_eq fun c hc => by
    obtain ⟨n, hn, rfl⟩ := exists_digit_of_mem_hexEncode hc
    exact isTrimmed_hexDigit hn
  have hlen : (hexEncode bs).length = 16 := by rw [hexEncode_length, h]
  simp only [normalizeText, htrim, hlen, if_true, hexDecode_hexEncode, Option.getD_some]

/-! ### Encryption and decryption -/

/-- What an encryption returns in each mode for a message that fits a buffer of `size` bytes (R164). -/
inductive EncryptsTo (rk : Vector RoundKey 16) (size : Nat) (p : Bytes) : TextMode → Text → Option Text → Prop where
  | ecb (fits : paddedLen p.length 8 ≤ size) : EncryptsTo rk size p .ecb (hexEncode (ecbEncrypt rk p)) none
  | cfb (iv : Block) (fits : p.length ≤ size) :
      EncryptsTo rk size p .cfb (hexEncode (cfbEncrypt rk p iv).1) (some (hexEncode (bytes8 iv)))

section
variable {rawTrimmed : Bool} {key : Text} {α : Type} {s t : State} {r : α} {k : State → Returned α}
variable (hidle : s.status.busy = false)
include hidle

/-- A call that answers a result has loaded a key of 8 bytes and gone on. -/
theorem withKey_ok (h : withKey rawTrimmed key s k = .next (t, .ok r)) :
    (normalizeText rawTrimmed key).length = 8 ∧
      ∃ u, u.status.busy = false ∧ u.status.keyv = true ∧ u.rk = textKeys rawTrimmed key ∧ k u = .next (t, .ok r) := by
  obtain ⟨h8, u, hu, hkeyv, hrk, -, hgo⟩ | ⟨-, u, e, -, hend⟩ := withKey_cases rawTrimmed key hidle
  · exact ⟨h8, u, hu, hkeyv, hrk, (hgo α k).symm.trans h⟩
  · cases (hend α k).symm.trans h

/-- A call that answers a result has gone on from its IV step with the same key. -/
theorem withIv_ok {md : TextMode} {iv : Option Text} (h : withIv rawTrimmed md iv s k = .next (t, .ok r)) :
    ∃ u, KeepsKey s u ∧ k u = .next (t, .ok r) := by
  obtain ⟨u, hu, hgo⟩ | ⟨u, e, -, hend⟩ := withIv_cases rawTrimmed md iv hidle
  · exact ⟨u, hu, (hgo α k).symm.trans h⟩
  · cases (hend α k).symm.trans h

theorem failWith_ne_ok {e : ErrCode} : (failWith e s : Returned α) ≠ .next (t, .ok r) := by
  obtain ⟨u, -, hend⟩ := failWith_keyless e hidle
  rw [hend]
  nofun

end

/-- An encryption that answers has had a key of 8 bytes, and returns the ciphertext of its mode under that key. -/
theorem encryptsTo_of_encryptText {rawTrimmed : Bool} {p key mode c : Text} {iv ivOut : Option Text} {s t : State}
    (hidle : s.status.busy = false) (h : encryptText rawTrimmed p key mode iv s = .next (t, .ok (c, ivOut))) :
    ∃ md, modeOfText mode = some md ∧ (normalizeText rawTrimmed key).length = 8 ∧ t.status.busy = false ∧
      EncryptsTo (textKeys rawTrimmed key) t.bufBytes (utf8Encode p) md c ivOut := by
  unfold encryptText at h
  split at h
  · cases h
  next md hmd =>
  obtain ⟨h8, s1, h1, hkeyv, hrk, h⟩ := withKey_ok hidle h
  obtain ⟨s2, h2, h⟩ := withIv_ok h1 h
  dsimp only at h
  split_ifs at h with hlong
  · exact absurd h (failWith_ne_ok h2.idle)
  have hfit := Nat.le_of_not_lt hlong
  have hkey2 := h2.keyv.trans hkeyv
  rw [← hrk, ← h2.rk]
  cases md with
  | ecb =>
    obtain ⟨s3, h3, hsize3, -, hgo⟩ := messageYields_ecbenc h2.idle hkey2 hfit
    cases (hgo _ _).symm.trans h
    exact ⟨.ecb, hmd, h8, h3, .ecb ((bufBytes_congr hsize3).symm ▸ hfit)⟩
  | cfb =>
    obtain ⟨v, s3, h3, hsize3, hiv, hgo⟩ := messageYields_cfbenc h2.idle hkey2 hfit
    simp only [hgo, rd32_regOffset, answer_resp, readReg, answer_iv, bytes4_ivHi_ivLo, hiv] at h
    cases h
    exact ⟨.cfb, hmd, h8, h3, .cfb v ((bufBytes_congr hsize3).symm ▸ hfit)⟩

/-- The decryption of what an encryption returns, with the same key and mode and the returned IV, answers the plaintext. -/
theorem decryptText_of_encryptsTo {rawTrimmed : Bool} {p key mode c : Text} {ivOut : Option Text} {md : TextMode}
    {t : State} (hidle : t.status.busy = false) (hmd : modeOfText mode = some md)
    (h8 : (normalizeText rawTrimmed key).length = 8)
    (henc : EncryptsTo (textKeys rawTrimmed key) t.bufBytes (utf8Encode p) md c ivOut) :
    ∃ u, decryptText rawTrimmed c key mode ivOut t = .next (u, .ok p) := by
  obtain ⟨-, t1, h1, hkeyv, hrk, hsize1, hgo1⟩ | ⟨hne, -⟩ := withKey_cases rawTrimmed key hidle
  swap
  · exact absurd h8 hne
  simp only [decryptText, hmd, hgo1]
  cases henc with
  | ecb fits =>
    have hfit : (ecbEncrypt t1.rk (utf8Encode p)).length ≤ t1.bufBytes := by
      rwa [ecbEncrypt_length, bufBytes_congr hsize1]
    obtain ⟨u, -, -, -, hgo⟩ := messageYields_ecbdec h1 hkeyv hfit (ecbDecrypt_ecbEncrypt t1.rk (utf8Encode p))
    rw [← hrk]
    simp only [withIv, hexDecode_hexEncode, if_neg (Nat.not_lt.mpr hfit), hgo, utf8Decode_utf8Encode]
    exact ⟨u, rfl⟩
  | cfb v fits =>
    obtain ⟨-, t2, h2, hivv, hiv, hgo2⟩ | ⟨hne, -⟩ := withIv_supplied_cases rawTrimmed (hexEncode (bytes8 v)) h1
    swap
    · exact absurd (congrArg List.length (normalizeText_hexEncode rawTrimmed (bytes8_length v))) hne
    rw [normalizeText_hexEncode rawTrimmed (bytes8_length v), be64_bytes8] at hiv
    have hfit : (cfbEncrypt t2.rk (utf8Encode p) v).1.length ≤ t2.bufBytes := by
      rwa [cfbEncrypt_length, bufBytes_congr h2.bufExp, bufBytes_congr hsize1]
    obtain ⟨u, -, -, -, hgo⟩ := messageYields_cfbdec h2.idle (h2.keyv.trans hkeyv) hivv hfit
    rw [hiv, cfbRoundTrip] at hgo
    rw [← hrk, ← h2.rk]
    simp only [hgo2, hexDecode_hexEncode, if_neg (Nat.not_lt.mpr hfit), hgo, utf8Decode_utf8Encode]
    exact ⟨u, rfl⟩

/-- Settles O60: an encryption that answers has returned a ciphertext of its mode, which decrypts to the plaintext. -/
theorem adapterRoundTrip : Obligations.AdapterRoundTrip := by
  intro rawTrimmed p key mode c iv ivOut s t hidle h
  obtain ⟨md, hmd, h8, ht, henc⟩ := encryptsTo_of_encryptText hidle h
  exact decryptText_of_encryptsTo ht hmd h8 henc

end Sys2Proof.Machine
end

section
/-!
Errors, the interrupt line, and the order of host and engine: what an error may have written before its completion, and what
each transaction and each completion leaves of irq (spec 60_exceptions.md R181 to R187, R193; 70_reset_and_hazards.md R211).
-/
namespace Sys2Proof.Machine

/-! ### Every step answers -/

theorem engineTurn_of_idle {s : State} (b : Bool) (hidle : s.status.busy = false) : engineTurn b s = .next s :=
  if_pos hidle

/-- Settles O8: with nothing scheduled or an engine event, the step is the turn of an IDLE engine. -/
theorem idleEngineDoesNothing : Obligations.IdleEngineDoesNothing := by
  intro s hidle
  refine ⟨fun hs => ?_, fun b rest hs => ?_⟩
  · rw [step_of_sched_nil hs, engineTurn_of_idle true hidle]
  · rw [step_of_sched_engine hs]
    exact engineTurn_of_idle (s := { s with sched := rest }) b hidle

/-- The completion answers in IDLE with DONE, and writes a command's own fields alone (R180). -/
theorem completion_ends (s : State) :
    ∃ t, completion s = .next t ∧ OnlyCommandFields s t ∧ t.status.busy = false ∧ t.status.done = true := by
  obtain ⟨op, t, ht, hc⟩ := completion_completes s
  refine ⟨t, ht, hc.onlyCommandFields, ?_⟩
  obtain ⟨code, u, -, -, rfl⟩ := hc
  exact ⟨complete_busy .., complete_done ..⟩

theorem engineTurn_answers (b : Bool) (s : State) : ∃ t, engineTurn b s = .next t := by
  obtain ⟨-, ht⟩ | ⟨-, -, -, ht⟩ | ⟨-, -, ht⟩ := engineTurn_cases b s
  · exact ⟨s, ht⟩
  · exact ⟨s, ht⟩
  · obtain ⟨t, hc, -⟩ := completion_ends s
    exact ⟨t, ht.trans hc⟩

theorem step_answers (s : State) : ∃ t, step s = .next t := by
  match hs : s.sched with
  | [] =>
    rw [step_of_sched_nil hs]
    exact engineTurn_answers true s
  | .host _ :: _ => exact ⟨_, step_of_sched_host hs⟩
  | .engine b :: rest =>
    rw [step_of_sched_engine hs]
    exact engineTurn_answers b { s with sched := rest }
  | .reset :: _ => exact ⟨_, step_of_sched_reset hs⟩

/-- Settles O9: a command completes with some code, and each kind of event answers. -/
theorem everyStepAnswers : Obligations.EveryStepAnswers := by
  refine ⟨step_answers, fun i s => ?_⟩
  obtain ⟨t, ht, -⟩ := exec_completes i s
  exact ⟨t, ht⟩

/-! ### What an error leaves -/

/-- What the latched command has written when it raises an error: nothing, but for what KEYLD and IVLD discard (R184). -/
inductive ErrorWrites (s : State) : State → Prop where
  | nothing : ErrorWrites s s
  | keyDiscarded (word : s.lat.cmd = encode .keyld) : ErrorWrites s (failKey s)
  | ivDiscarded (word : s.lat.cmd = encode .ivld) : ErrorWrites s (failIv s)

theorem CommandWrites.errorWrites {s u : State} {i : Instr} {code : ErrCode} (h : CommandWrites s i code u)
    (hword : s.lat.cmd = encode i) (hcode : code ≠ .success) : ErrorWrites s u := by
  cases h with
  | error => exact .nothing
  | keyError => exact .keyDiscarded hword
  | ivError => exact .ivDiscarded hword
  | _ => exact absurd rfl hcode

/-- A completion with a nonzero code is `complete` with the OP of the latched word over the error's writes (R65, R184). -/
theorem completion_error {s t : State} (h : completion s = .next t) (herr : t.status.errcode ≠ .success) :
    ∃ code u, ErrorWrites s u ∧ t = complete (wordOp s.lat.cmd) code u := by
  unfold completion at h
  split at h
  · next i hi =>
    obtain ⟨code, u, hw, rfl⟩ := ends_of_exec h
    obtain ⟨-, hop, -⟩ := decode_command_fields hi
    rw [complete_errcode] at herr
    exact ⟨code, u, hw.errorWrites (encode_of_decode hi).symm herr, by rw [hop]⟩
  · cases h
    exact ⟨_, s, .nothing, rfl⟩
  · cases h
    exact ⟨_, s, .nothing, rfl⟩

section
variable {s u : State} (h : ErrorWrites s u)
include h

theorem ErrorWrites.status_eq :
    u.status = { s.status with keyv := u.status.keyv, ivv := u.status.ivv } := by
  cases h <;> rfl

/-- Neither the error's writes nor the completion touch more than the key state and STATUS (R184). -/
theorem ErrorWrites.complete_frame {op : BitVec 4} {code : ErrCode} {t : State} (ht : t = complete op code u) :
    t = { s with k := t.k, rk := t.rk, fb := t.fb, status := t.status } := by
  obtain hc | hc := complete_cases op code u <;> rw [ht, hc] <;> cases h <;> rfl

theorem ErrorWrites.fb_eq : u.fb = s.fb := by
  cases h <;> rfl

theorem ErrorWrites.keepsKey (hne : s.lat.cmd ≠ encode .keyld) :
    u.k = s.k ∧ u.rk = s.rk ∧ u.status.keyv = s.status.keyv := by
  cases h with
  | keyDiscarded word => exact absurd word hne
  | nothing | ivDiscarded => exact ⟨rfl, rfl, rfl⟩

theorem ErrorWrites.keepsIvv (hne : s.lat.cmd ≠ encode .ivld) : u.status.ivv = s.status.ivv := by
  cases h with
  | ivDiscarded word => exact absurd word hne
  | nothing | keyDiscarded => rfl

end

/-- Settles O26: the completion changes key state and STATUS alone, over the little an error has written before it. -/
theorem errorsLeaveNoOutput : Obligations.ErrorsLeaveNoOutput := by
  intro s t hb hs hres hgen hstep herr
  rw [step_of_busy hb hs] at hstep
  obtain ⟨code, u, hw, ht⟩ := completion_error hstep herr
  have hframe : t = { s with k := t.k, rk := t.rk, fb := t.fb, status := t.status } := hw.complete_frame ht
  have hplain (hc : ¬ CipherWord s.lat.cmd) : t = endPlain code u :=
    ht.trans (complete_plain _ _ _ (eq_false_of_ne_true (mt (isCipherOp_iff _).mp hc)))
  obtain ⟨-, hrej, -⟩ := (onlyCommandFields_complete (wordOp s.lat.cmd) code u).frame
  refine ⟨hframe, fun a => byteAt_congr ?_ ?_ a, ?_, ?_, ?_, ?_, ?_, ?_, fun hc => ?_, fun hc hne => ?_,
    fun hc hne => ?_⟩
  · rw [hframe]
  · rw [hframe]
  · rw [hframe, hres]
  · rw [hframe]
  · rw [ht, complete_busy]
  · rw [ht, complete_done]
  · rw [ht, complete_ivgen, hw.status_eq, hgen]
  · rw [ht, hrej, hw.status_eq]
  · rw [hplain hc]
    exact hw.fb_eq
  · rw [hplain hc]
    exact hw.keepsKey hne
  · rw [hplain hc]
    exact hw.keepsIvv hne

/-! ### The interrupt line -/

theorem irq_answer (d : Word) (e : Bool) (s : State) : irq (answer d e s) = irq s := rfl

/-- After a register write the line is that of the register write: the answer does not touch it (R41, R186). -/
theorem irq_transact_write32_reg (r : Reg) (v : Word) (s : State) :
    irq (transact (write32 (regOffset r) v) s) = irq (writeReg r v s) := by
  rw [transact_write32_reg, irq_answer]

/-- A completion asserts the line while IRQEN = 1 (R186). -/
theorem irq_of_completion {s t : State} (h : completion s = .next t) : irq t = s.irqen := by
  obtain ⟨u, hu, hframe, -, hdone⟩ := completion_ends s
  cases hu.symm.trans h
  obtain ⟨hirqen, -⟩ := hframe.frame
  rw [irq, hdone, hirqen, Bool.and_true]

/-- Clearing DONE deasserts the line (R14, R186). -/
theorem irq_writeStatus {v : Word} (s : State) (h : v.getLsbD 1 = true) : irq (writeReg .status v s) = false := by
  simp [irq, writeReg, statusWrite, h]

/-- The line follows IRQEN at once (R13, R186). -/
theorem irq_writeCtrl {v : Word} (s : State) (h : v.getLsbD 1 = false) :
    irq (writeReg .ctrl v s) = (v.getLsbD 0 && s.status.done) := by
  have hwrite : writeReg .ctrl v s = { s with irqen := v.getLsbD 0 } := if_neg (ne_true_of_eq_false h)
  rw [hwrite, irq]

/-- The accept clears DONE, which deasserts the line (R15, R186). -/
theorem irq_writeCmd (w : Word) {s : State} (hidle : s.status.busy = false) : irq (writeReg .cmd w s) = false := by
  simp [irq, writeReg, writeCmd, hidle]

/-- Settles O51: the completion sets DONE, and each register write is followed to IRQEN and DONE. -/
theorem interruptIsALevel : Obligations.InterruptIsALevel := by
  intro s
  refine ⟨rfl, fun t hb hs h => ?_, fun v hv => ?_, ?_, ?_, fun w hidle => ?_⟩
  · exact irq_of_completion ((step_of_busy hb hs).symm.trans h)
  · exact (irq_transact_write32_reg .status v s).trans (irq_writeStatus s hv)
  · exact (irq_transact_write32_reg .ctrl 0 s).trans (irq_writeCtrl s rfl)
  · exact (irq_transact_write32_reg .ctrl 1 s).trans (irq_writeCtrl s rfl)
  · exact (irq_transact_write32_reg .cmd w s).trans (irq_writeCmd w hidle)

/-! ### The order of host and completion -/

/-- Settles O52: a register write acts on BUSY as it stands when its turn comes, before the completion or after it. -/
theorem orderOfHostAndCompletion : Obligations.OrderOfHostAndCompletion := by
  intro s w rest hb
  refine ⟨fun hs => ?_, fun hs => ?_, fun hs => ?_⟩
  · rw [step_of_sched_host hs]
    exact congrArg _ ((cmdWriteAcceptsOrRejects.1 { s with sched := rest } w).1 hb)
  · have hwrite := transact_write32_reg .status 2 { s with sched := [] }
    have hstep := (step_of_sched_host hs).trans (congrArg _ hwrite)
    obtain ⟨u, hu, hidle, hdone, -⟩ :=
      completionEndsTheCommand (answer 0 false (writeReg .status 2 { s with sched := [] })) hb rfl
    exact ⟨_, u, hstep, hb, hu, hdone, hidle⟩
  · obtain ⟨t, ht, hframe, hidle, -⟩ := completion_ends { s with sched := [.host (write32 0x00C w)] }
    have hstep : step s = .next t := by
      rw [step_of_sched_engine hs, engineTurn_true_of_busy, ht]
      exact hb
    have haccept := (cmdWriteAcceptsOrRejects.1 { t with sched := [] } w).2.1 hidle
    obtain ⟨-, hrej, -⟩ := hframe.frame
    exact ⟨t, _, hstep, (step_of_sched_host hframe.sched_eq).trans (congrArg _ haccept), rfl, rfl, rfl, hrej⟩

end Sys2Proof.Machine
end
